-- ==== Sys2Proof/Word.lean ====
section
/-! DEFINITION. The value types of the block: the 32-bit port word, the ScaledComplex pair, the names of the memories. -/

namespace Sys2Proof

/-- One word of the Host's data port (00_scope.md R8: `DATA_W` is fixed at 32). -/
abbrev PortWord := BitVec 32

/-- A ScaledComplex value, a pair of signed integers (40_scaled_complex.md R90). The datapath computes in the mathematical
integers (R97), so the parts are integers; that they fit `ACC_W` bits is a statement about the Engine (R99). -/
structure ScaledComplex where
  re : Int
  im : Int
  deriving DecidableEq, Repr

/-- The pair (0, 0). -/
def ScaledComplex.zero : ScaledComplex := ⟨0, 0⟩

/-- The three memories of the block (20_memory.md R50). -/
inductive Space where
  | re
  | im
  | tw
  deriving DecidableEq, Repr

end Sys2Proof
end

