-- ==== Sys2Proof/Config.lean ====
section
/-! DEFINITION. The configuration record of 00_scope.md R8 and the free values of the points the spec leaves open. -/

namespace Sys2Proof

/-- The parameters "which a model takes as arguments (a configuration record)" (00_scope.md R8). `TW_W` is derived and
`DATA_W` is fixed. The record stands in State (`State.cfg`), where no step changes it: log 2. -/
structure Params where
  /-- `LOG2_AMAX` -/
  log2Amax : Nat
  /-- `SAMPLE_W` -/
  sampleW : Nat
  /-- `ACC_W` -/
  accW : Nat
  deriving DecidableEq, Repr

namespace Params

/-- The default column of R8. -/
def default : Params := { log2Amax := 10, sampleW := 32, accW := 64 }

/-- `AMAX = 2^LOG2_AMAX` (R8). -/
def amax (c : Params) : Nat := 2 ^ c.log2Amax

/-- `TW_W = LOG2_AMAX + 2` (R8). -/
def twW (c : Params) : Nat := c.log2Amax + 2

/-- The constraint column of R8. -/
abbrev Legal (c : Params) : Prop :=
  1 ≤ c.log2Amax ∧ c.log2Amax ≤ 15 ∧ 4 ≤ c.sampleW ∧ c.sampleW ≤ 32 ∧ c.sampleW + c.log2Amax + 2 ≤ c.accW

end Params

namespace Config

/-- FREE VALUE (log 3): what a read of a memory word that has not been written since its contents last became unspecified
finds; the reader keeps the low bits of the memory's width. Arguments: the draw, the memory, the index.
10_state.md R36, 93_implementation_defined.md U2 and U6: any value, not necessarily the same on two reads. -/
opaque freeWord : Nat → Space → Nat → PortWord

/-- FREE VALUE (log 6): what a Host read of RE, IM or TW returns while BUSY = 1. Argument: the draw.
60_exceptions.md R218, 93_implementation_defined.md U3. -/
opaque freeRead : Nat → PortWord

/-- FREE VALUE (log 12): the index BREV returns outside its contract. Arguments: the draw, the index that is reversed.
43_bit_reversal.md R135. -/
opaque freeIndex : Nat → Nat → Nat

/-- FREE VALUE (log 26): the entry TWGEN makes for an `A` that is no base size of the block; the writer keeps the low `TW_W` bits.
Argument: the draw. 41_twiddle_rom.md R111, R115. -/
opaque freeEntry : Nat → PortWord

end Config

end Sys2Proof
end

