-- ==== Sys2Proof/Syntax.lean ====
section
/-! DEFINITION. The operations of the block as syntax: one constructor for each row of spec/opcode_table.json. -/

namespace Sys2Proof

/-- The operations. The four `CMD` rows carry the 16-bit SIZE operand of 30_encoding.md R71, R72; the eleven `UOP` rows carry
the operands of 30_encoding.md R74, which no encoding holds. They are written as R78 writes them, as function applications. -/
inductive Instr where
  /-- `BUILD A` (45_commands.md R181) -/
  | build (size : BitVec 16)
  /-- `XFORM N` (45_commands.md R182) -/
  | xform (size : BitVec 16)
  /-- `RELEASE` (45_commands.md R183) -/
  | release
  /-- `CLRSTAT` (45_commands.md R184) -/
  | clrstat
  /-- `CADD(a, b)` (40_scaled_complex.md R93) -/
  | cadd (a b : ScaledComplex)
  /-- `CSUB(a, b)` (40_scaled_complex.md R94) -/
  | csub (a b : ScaledComplex)
  /-- `CMUL(a, b)` (40_scaled_complex.md R95) -/
  | cmul (a b : ScaledComplex)
  /-- `CRSH(a, sh)` (40_scaled_complex.md R96); `sh` is an integer so that R101's negative shift can be written and refused -/
  | crsh (a : ScaledComplex) (sh : Int)
  /-- `TWLK(z, P)` (41_twiddle_rom.md R116) -/
  | twlk (z P : Nat)
  /-- `BREV(j, N)` (43_bit_reversal.md R135) -/
  | brev (j N : Nat)
  /-- `BRPASS(N)` (43_bit_reversal.md R137) -/
  | brpass (N : Nat)
  /-- `PAIR0(i)` (44_butterfly_engine.md R153) -/
  | pair0 (i : Nat)
  /-- `BFLY(a, b, z, p, M)` (44_butterfly_engine.md R156) -/
  | bfly (a b z p M : Nat)
  /-- `DBFLY(i, k2, z, p, M)` (44_butterfly_engine.md R158) -/
  | dbfly (i k2 z p M : Nat)
  /-- `TWGEN(A, i)` (41_twiddle_rom.md R115) -/
  | twgen (A i : Nat)
  deriving DecidableEq, Repr

/-- The operand lines of an internal operation. The spec encodes no operand of a `UOP` (30_encoding.md R72, R74); an operation's
operands stand on these lines beside its select code. The names of the lines are the model's (log 10). -/
structure OperandLines where
  a  : ScaledComplex
  b  : ScaledComplex
  sh : Int
  x  : Nat
  y  : Nat
  z  : Nat
  p  : Nat
  m  : Nat
  deriving DecidableEq, Repr

/-- Operand lines of zeros. -/
def OperandLines.idle : OperandLines :=
  { a := .zero, b := .zero, sh := 0, x := 0, y := 0, z := 0, p := 0, m := 0 }

/-- An internal operation as it is presented to the datapath: the 4-bit select code (format `UOP`, 30_encoding.md R70) and the
operand lines. -/
structure UopWord where
  code  : BitVec 4
  lines : OperandLines
  deriving DecidableEq, Repr

/-- The two formats of 30_encoding.md R70. -/
inductive Encoded where
  | cmd (w : PortWord)
  | uop (u : UopWord)
  deriving DecidableEq, Repr

end Sys2Proof
end

