-- ==== Sys2Proof/Decode.lean ====
section
/-! DEFINITION. Decoding of the two formats (30_encoding.md R70 to R80), and the encoder written from the same tables. -/

namespace Sys2Proof

/-- `OPC`, bits 3:0 of a command word (30_encoding.md R71). -/
def opcField (w : PortWord) : BitVec 4 := w.extractLsb' 0 4

/-- `RSV`, bits 15:4 of a command word (30_encoding.md R71). -/
def rsvField (w : PortWord) : BitVec 12 := w.extractLsb' 4 12

/-- `SIZE`, bits 31:16 of a command word (30_encoding.md R71, R72). -/
def sizeField (w : PortWord) : BitVec 16 := w.extractLsb' 16 16

/-- `decode(c)` of 30_encoding.md R80; `none` is `Illegal` (R75). -/
def decodeCmd (w : PortWord) : Option Instr :=
  if rsvField w ≠ 0 then none
  else if opcField w = 1 then some (.build (sizeField w))
  else if opcField w = 2 then some (.xform (sizeField w))
  else if opcField w = 3 ∧ sizeField w = 0 then some .release
  else if opcField w = 4 ∧ sizeField w = 0 then some .clrstat
  else none

/-- The select codes of 30_encoding.md R74, with the operands from the lines; codes 0xB to 0xF name no operation (R74, R76). -/
def decodeUop (u : UopWord) : Option Instr :=
  match u.code.toNat with
  | 0x0 => some (.cadd u.lines.a u.lines.b)
  | 0x1 => some (.csub u.lines.a u.lines.b)
  | 0x2 => some (.cmul u.lines.a u.lines.b)
  | 0x3 => some (.crsh u.lines.a u.lines.sh)
  | 0x4 => some (.twlk u.lines.z u.lines.p)
  | 0x5 => some (.brev u.lines.x u.lines.y)
  | 0x6 => some (.brpass u.lines.x)
  | 0x7 => some (.pair0 u.lines.x)
  | 0x8 => some (.bfly u.lines.x u.lines.y u.lines.z u.lines.p u.lines.m)
  | 0x9 => some (.dbfly u.lines.x u.lines.y u.lines.z u.lines.p u.lines.m)
  | 0xA => some (.twgen u.lines.x u.lines.y)
  | _ => none

/-- Decoding in either format. -/
def decode : Encoded → Option Instr
  | .cmd w => decodeCmd w
  | .uop u => decodeUop u

/-- A command word from its SIZE and OPC fields, RSV = 0 (30_encoding.md R71, R80). -/
def cmdWord (size : BitVec 16) (opc : BitVec 4) : PortWord := size ++ (0 : BitVec 12) ++ opc

/-- The encoder (30_encoding.md R73, R74, R80). Lines an operation does not use are zero. -/
def encode : Instr → Encoded
  | .build size => .cmd (cmdWord size 1)
  | .xform size => .cmd (cmdWord size 2)
  | .release => .cmd (cmdWord 0 3)
  | .clrstat => .cmd (cmdWord 0 4)
  | .cadd a b => .uop ⟨0x0, { OperandLines.idle with a := a, b := b }⟩
  | .csub a b => .uop ⟨0x1, { OperandLines.idle with a := a, b := b }⟩
  | .cmul a b => .uop ⟨0x2, { OperandLines.idle with a := a, b := b }⟩
  | .crsh a sh => .uop ⟨0x3, { OperandLines.idle with a := a, sh := sh }⟩
  | .twlk z P => .uop ⟨0x4, { OperandLines.idle with z := z, p := P }⟩
  | .brev j N => .uop ⟨0x5, { OperandLines.idle with x := j, y := N }⟩
  | .brpass N => .uop ⟨0x6, { OperandLines.idle with x := N }⟩
  | .pair0 i => .uop ⟨0x7, { OperandLines.idle with x := i }⟩
  | .bfly a b z p M => .uop ⟨0x8, { OperandLines.idle with x := a, y := b, z := z, p := p, m := M }⟩
  | .dbfly i k2 z p M => .uop ⟨0x9, { OperandLines.idle with x := i, y := k2, z := z, p := p, m := M }⟩
  | .twgen A i => .uop ⟨0xA, { OperandLines.idle with x := A, y := i }⟩

/-- A word of the opcode table as the block takes it: a row of `nbits ≤ 8` bits is a `UOP` select code (4 bits; the rest of its
byte must be 0) with operand lines of zeros, any longer row is a 32-bit command word. `none` for a word that does not fit its
format. The two formats overlap as numbers and only the length tells them apart (log 10). -/
def tableWord (nbits w : Nat) : Option Encoded :=
  if nbits ≤ 8 then
    if w < 16 then some (.uop ⟨BitVec.ofNat 4 w, OperandLines.idle⟩) else none
  else if w < 2 ^ 32 then some (.cmd (BitVec.ofNat 32 w)) else none

/-- The instruction the decoder reads from a word of spec/opcode_table.json. -/
def decodeTableWord (nbits w : Nat) : Option Instr :=
  match tableWord nbits w with
  | some e => decode e
  | none => none

end Sys2Proof
end

