-- ==== Sys2Proof/Machine/Bits.lean ====
section
/-! DEFINITION. The notation of 00_scope.md R11 and R14 on numbers: two's complement readings, ranges, sizes, table depths. -/

namespace Sys2Proof.Machine

/-- `fits_W(v)`: `-2^(W-1) ≤ v ≤ 2^(W-1) - 1` (00_scope.md R11). -/
abbrev fits (W : Nat) (v : Int) : Prop := -((2 ^ (W - 1) : Nat) : Int) ≤ v ∧ v < ((2 ^ (W - 1) : Nat) : Int)

/-- `signed_W(x[W-1:0])`: the low `W` bits of a port word read as a two's complement integer (00_scope.md R11, 20_memory.md R56). -/
def signedLow (W : Nat) (x : PortWord) : Int := Int.bmod (x.toNat : Int) (2 ^ W)

/-- `sext_32(v)` of a value no wider than 32 bits, as the pattern on the port (00_scope.md R11, 20_memory.md R56). -/
def sext32 (v : Int) : PortWord := BitVec.ofInt 32 v

/-- A power of two that is at least 2, tested as 60_exceptions.md R212 tests it: `v & (v - 1) = 0`. -/
def isPow2 (v : Nat) : Bool := decide (2 ≤ v) && (v &&& (v - 1) == 0)

/-- `is_size(v)` (60_exceptions.md R212). -/
def isSize (c : Params) (v : Nat) : Bool := decide (v ≤ c.amax) && isPow2 v

/-- `Q(A) = ⌊A/4⌋` (00_scope.md R14). -/
def quarterOffset (A : Nat) : Nat := A / 4

/-- `DEPTH(A) = A + ⌊A/4⌋` (00_scope.md R14, 41_twiddle_rom.md R115). -/
def depth (A : Nat) : Nat := A + quarterOffset A

/-- `floor(v / 2^sh)`, the arithmetic right shift (00_scope.md R11, 40_scaled_complex.md R96). Integer division by a positive
divisor rounds toward minus infinity here. -/
def floorShift (v : Int) (sh : Nat) : Int := v / ((2 ^ sh : Nat) : Int)

end Sys2Proof.Machine
end

