-- ==== Sys2Proof/Machine/State.lean ====
section
/-! DEFINITION. The state of the block (10_state.md R21, R22, R26, R29), the reasons a step can stop, and the state after reset. -/

namespace Sys2Proof.Machine

/-- A memory: cells (word index, signed value), indexes strictly rising. The block is word addressed and has no byte
(20_memory.md R50, R52), so the cell is a word (log 1). An index that is not listed holds an unspecified word (10_state.md R36,
93_implementation_defined.md U2, U6); reading it gives a free value (log 3). -/
abbrev Memory := List (Nat × Int)

/-- The canonical form: indexes strictly rising. (No value is what an unlisted index reads as, so no entry can be redundant.) -/
abbrev Memory.wf (m : Memory) : Prop := (m.map Prod.fst).Pairwise (· < ·)

/-- `SEQ.phase` (10_state.md R26). -/
inductive Phase where
  | idle
  | building
  | permute
  | stage0
  | general
  deriving DecidableEq, Repr

/-- The sequencer registers (10_state.md R26). -/
structure Seq where
  phase : Phase
  n     : Nat
  m     : Nat
  g     : Nat
  k     : Nat
  p     : Nat
  i     : Nat
  cnt   : Nat
  z     : Nat
  deriving DecidableEq, Repr

/-- The ScaledComplex operand registers (10_state.md R29). -/
structure OperandRegs where
  e : ScaledComplex
  o : ScaledComplex
  w : ScaledComplex
  t : ScaledComplex
  deriving DecidableEq, Repr

/-- The flags and the code field of `STATUS` (10_state.md R31). -/
structure Status where
  busy       : Bool
  done       : Bool
  err        : Bool
  tableValid : Bool
  errCode    : BitVec 4
  deriving DecidableEq, Repr

/-- The input pins of the port at one clock edge (10_state.md R22). `engine` is the model's own (log 8): whether the Engine, if it
was busy before the edge, makes its next operation at this edge; the spec fixes no number of operations in a cycle
(70_reset_and_hazards.md R251). -/
structure PortCycle where
  rst    : Bool
  sel    : Bool
  we     : Bool
  addr   : Nat
  wdata  : PortWord
  engine : Bool
  deriving DecidableEq, Repr

/-- The result output of an internal operation that returns a value (30_encoding.md R74, column `result`); the model's own
field (log 11). -/
inductive Result where
  | none
  | complex (v : ScaledComplex)
  | index (j : Nat)
  deriving DecidableEq, Repr

/-- The whole state of the block (10_state.md R21), its port (R22), and the model's own fields `cfg`, `host`, `uop`, `result`
and `draws`. -/
structure State where
  /-- the configuration record of 00_scope.md R8; no step changes it (log 2) -/
  cfg    : Params
  /-- `RE` (10_state.md R23) -/
  re     : Memory
  /-- `IM` (10_state.md R23) -/
  im     : Memory
  /-- `TW` (10_state.md R24) -/
  tw     : Memory
  /-- `TABLE_A` (10_state.md R25, R32) -/
  tableA : Nat
  /-- `STATUS` (10_state.md R31) -/
  status : Status
  /-- `SEQ` (10_state.md R26) -/
  seq    : Seq
  /-- `e`, `o`, `w`, `t` (10_state.md R29) -/
  opnd   : OperandRegs
  /-- the output `rdata` (10_state.md R22): a value when the last edge had a read, else not valid (log 16) -/
  rdata  : Option PortWord
  /-- the last internal operation's returned value (log 11) -/
  result : Result
  /-- the Host's coming port cycles, the next one first (log 8) -/
  host   : List PortCycle
  /-- an internal operation put on the select lines from outside the sequencer, never in the hardware (log 10) -/
  uop    : Option UopWord
  /-- the counter of free values (log 4) -/
  draws  : Nat
  deriving DecidableEq, Repr

/-- Why a step can stop with a fault. -/
inductive Fault where
  /-- Raised by the checked stores of PAIR0, BFLY and DBFLY when the value does not fit `SAMPLE_W` bits (44_butterfly_engine.md
  R157): 60_exceptions.md R219, "How a model treats it: as a fault". Safe: the hardware goes on with an unspecified word (log 7). -/
  | overflow (space : Space) (index : Nat) (value : Int)
  deriving DecidableEq, Repr

/-- Why a step can be refused. -/
inductive Refusal where
  /-- Raised by `exec` alone, for an instruction without a meaning. Safe. -/
  | notModelled (mnemonic : String)
  /-- Raised by TWLK, BFLY and DBFLY for a lookup outside the preconditions of 41_twiddle_rom.md R116
  (93_implementation_defined.md U4, treatment `refuse`). Safe: the Engine never makes such a call (R117). -/
  | lookupOutsideContract
  /-- Raised by CRSH for a negative shift amount (40_scaled_complex.md R101, "has no meaning and is refused"). Safe. -/
  | negativeShift
  /-- Raised by PAIR0, BFLY, DBFLY and TWGEN when an index has no word behind it (20_memory.md R50). Safe: the Engine makes no
  such access (44_butterfly_engine.md R160, R161). -/
  | noSuchWord
  /-- Raised by a step that is given a select code 0xB to 0xF (30_encoding.md R74, R76: they "name no operation"). Safe. -/
  | unusedCode
  deriving DecidableEq, Repr

/-- What a step or a meaning answers. -/
abbrev Answer := Host.Outcome State Fault Refusal

namespace State

/-- The state after reset (10_state.md R36), at the default parameters of 00_scope.md R8. The hidden registers the spec leaves
unspecified are 0 (log 5, DESIGN CHOICE); every memory word is unspecified, that is, not listed. -/
def reset : State where
  cfg := .default
  re := []
  im := []
  tw := []
  tableA := 0
  status := { busy := false, done := false, err := false, tableValid := false, errCode := 0 }
  seq := { phase := .idle, n := 0, m := 0, g := 0, k := 0, p := 0, i := 0, cnt := 0, z := 0 }
  opnd := { e := .zero, o := .zero, w := .zero, t := .zero }
  rdata := none
  result := .none
  host := []
  uop := none
  draws := 0

/-! Named updates, one for each field that an operation writes. -/

def setRe (s : State) (x : Memory) : State := { s with re := x }
def setIm (s : State) (x : Memory) : State := { s with im := x }
def setTw (s : State) (x : Memory) : State := { s with tw := x }
def setTableA (s : State) (x : Nat) : State := { s with tableA := x }
def setStatus (s : State) (x : Status) : State := { s with status := x }
def setSeq (s : State) (x : Seq) : State := { s with seq := x }
def setOpnd (s : State) (x : OperandRegs) : State := { s with opnd := x }
def setRdata (s : State) (x : Option PortWord) : State := { s with rdata := x }
def setResult (s : State) (x : Result) : State := { s with result := x }
def setHost (s : State) (x : List PortCycle) : State := { s with host := x }
def setUop (s : State) (x : Option UopWord) : State := { s with uop := x }
def setDraws (s : State) (x : Nat) : State := { s with draws := x }

end State

end Sys2Proof.Machine
end

