-- ==== Sys2Proof/Machine/Flags.lean ====
section
/-! DEFINITION. The status flags: the causes and codes of 60_exceptions.md R211, the STATUS word of 10_state.md R31, the pins. -/

namespace Sys2Proof.Machine

/-- The causes of a rejection (60_exceptions.md R211). -/
inductive Cause where
  | illegalCmd
  | badSize
  | noTable
  | sizeMismatch
  | busyViolation
  deriving DecidableEq, Repr

/-- `ERR_CODE` of a cause (60_exceptions.md R211). -/
def Cause.code : Cause → BitVec 4
  | .illegalCmd => 1
  | .badSize => 2
  | .noTable => 3
  | .sizeMismatch => 4
  | .busyViolation => 5

/-- The status after a rejection (60_exceptions.md R214): the first cause is kept while `ERR = 1`. -/
def Status.reject (st : Status) (c : Cause) : Status :=
  if st.err then st else { st with err := true, errCode := c.code }

/-- The status after `CLRSTAT` (45_commands.md R184). -/
def Status.clear (st : Status) : Status := { st with done := false, err := false, errCode := 0 }

/-- Acceptance of a command: `DONE <- 0` (45_commands.md R180). -/
def Status.accept (st : Status) : Status := { st with done := false }

/-- Acceptance of a command that runs: also `BUSY <- 1` (45_commands.md R181, R182). -/
def Status.start (st : Status) : Status := { st with done := false, busy := true }

/-- Completion: `BUSY <- 0`, `DONE <- 1` (45_commands.md R181, R182). -/
def Status.complete (st : Status) : Status := { st with busy := false, done := true }

/-- `TABLE_VALID <- v`. -/
def Status.setTableValid (st : Status) (v : Bool) : Status := { st with tableValid := v }

/-- The word a read of `STATUS` returns (10_state.md R31): bit 0 BUSY, 1 DONE, 2 ERR, 3 TABLE_VALID, 7:4 ERR_CODE, 31:8 zero. -/
def Status.word (st : Status) : PortWord :=
  (0 : BitVec 24) ++ st.errCode ++ BitVec.ofBool st.tableValid ++ BitVec.ofBool st.err ++ BitVec.ofBool st.done ++ BitVec.ofBool st.busy

/-- The output pin `busy` (10_state.md R22, 60_exceptions.md R221). -/
def State.busyPin (s : State) : Bool := s.status.busy

/-- The output pin `done` (10_state.md R22, 60_exceptions.md R221). -/
def State.donePin (s : State) : Bool := s.status.done

end Sys2Proof.Machine
end

