-- ==== Sys2Proof/Machine/Ops.lean ====
section
/-! DEFINITION. The named operations over the memories and registers, the rejection of an access, and its acknowledgement. -/

namespace Sys2Proof.Machine

/-- Run `f` on the next state of an answer; a fault or a refusal stays. -/
def andThen (r : Answer) (f : State → Answer) : Answer :=
  match r with
  | .next s => f s
  | .fault x => .fault x
  | .refused x => .refused x

/-- The word listed at an index, if any. -/
def Memory.find : Memory → Nat → Option Int
  | [], _ => none
  | (j, v) :: rest, i => if i = j then some v else Memory.find rest i

/-- Write one word, keeping the indexes strictly rising. -/
def Memory.write : Memory → Nat → Int → Memory
  | [], i, v => [(i, v)]
  | (j, w) :: rest, i, v =>
    if i < j then (i, v) :: (j, w) :: rest
    else if i = j then (i, v) :: rest
    else (j, w) :: Memory.write rest i v

/-- The memory of a space. -/
def State.mem (s : State) : Space → Memory
  | .re => s.re
  | .im => s.im
  | .tw => s.tw

/-- The state with the memory of a space replaced. -/
def State.setMem (s : State) (sp : Space) (m : Memory) : State :=
  match sp with
  | .re => s.setRe m
  | .im => s.setIm m
  | .tw => s.setTw m

/-- The width of a word of a space (20_memory.md R50). -/
def Params.spaceW (c : Params) : Space → Nat
  | .re => c.sampleW
  | .im => c.sampleW
  | .tw => c.twW

/-- The number of words of a space (20_memory.md R50). -/
def Params.spaceWords (c : Params) : Space → Nat
  | .re => c.amax
  | .im => c.amax
  | .tw => depth c.amax

/-- What a read of word `i` of a space finds when no rule says what it holds: any value of the space's width (10_state.md R36,
93_implementation_defined.md U2, U6; log 3). -/
def unspecifiedWord (s : State) (sp : Space) (i : Nat) : Int :=
  signedLow (Params.spaceW s.cfg sp) (Config.freeWord s.draws sp i)

/-- `RE[i]`, `IM[i]`, `TW[i]` as signed integers (00_scope.md R12). -/
def load (s : State) (sp : Space) (i : Nat) : Int :=
  match (s.mem sp).find i with
  | some v => v
  | none => unspecifiedWord s sp i

/-- `RE[i] <- v`, `IM[i] <- v`, `TW[i] <- v` for a value that fits (00_scope.md R12). -/
def put (s : State) (sp : Space) (i : Nat) (v : Int) : State :=
  s.setMem sp ((s.mem sp).write i v)

/-- The checked stores `STORE_RE(j, v)` and `STORE_IM(j, v)` (44_butterfly_engine.md R157): the word is written when it fits
`SAMPLE_W` bits, else the run has no defined result, which 60_exceptions.md R219 makes the fault `Overflow`. -/
def store (sp : Space) (j : Nat) (v : Int) (s : State) : Answer :=
  if fits s.cfg.sampleW v then .next (put s sp j v) else .fault (.overflow sp j v)

/-- Tap `j` loaded into the datapath (40_scaled_complex.md R91). -/
def loadTap (s : State) (j : Nat) : ScaledComplex := ⟨load s .re j, load s .im j⟩

/-- `STORE_RE(j, v.re); STORE_IM(j, v.im)` (44_butterfly_engine.md R156). -/
def storeTap (j : Nat) (v : ScaledComplex) (s : State) : Answer :=
  andThen (store .re j v.re s) (store .im j v.im)

/-- THE REJECTION OF AN ACCESS (60_exceptions.md R214, "trap entry"), the block's one way of taking an exception: the code of the
first cause is recorded, nothing else changes. -/
def reject (c : Cause) (s : State) : State := s.setStatus (s.status.reject c)

/-- THE ACKNOWLEDGEMENT of an error (60_exceptions.md R216, 45_commands.md R184), the counterpart of a return from exception. -/
def acknowledge (s : State) : State := s.setStatus s.status.clear

/-- `STATUS.TABLE_VALID <- 0; TABLE_A <- 0`. The contents of `TW` are unspecified from here on (45_commands.md R183,
41_twiddle_rom.md R115), so no word stays listed. -/
def dropTable (s : State) : State :=
  ((s.setStatus (s.status.setTableValid false)).setTableA 0).setTw []

/-- The issue of a command that was decoded (45_commands.md R180): while BUSY it is rejected with `BUSY_VIOLATION`; else its own
check is made (60_exceptions.md R212, R213), and the command is rejected with the first cause or accepted. -/
def issue (check : State → Option Cause) (accept : State → State) (s : State) : Answer :=
  if s.status.busy then .next (reject .busyViolation s)
  else
    match check s with
    | some c => .next (reject c s)
    | none => .next (accept s)

/-- Put a value on the result output (30_encoding.md R74, column `result`; log 11). -/
def deliver (r : Result) (s : State) : Answer := .next (s.setResult r)

end Sys2Proof.Machine
end

