-- ==== Sys2Proof/Machine/TwiddleTable.lean ====
section
/-! DEFINITION. The twiddle table: the first quarters of 42_twiddle_tables.md section 3, and the entry function T(A, i) of
41_twiddle_rom.md R111 by the expansion of R131. -/

namespace Sys2Proof.Machine

/-! The first quarters `T(A, 0), ..., T(A, A/4)`, 42_twiddle_tables.md R130 and section 3, entry by entry as printed there. The long
ones are written in pieces. -/

/-- `A = 4` (2 entries) -/
def quarter4 : List Nat :=
  [4, 0]

/-- `A = 8` (3 entries) -/
def quarter8 : List Nat :=
  [8, 6, 0]

/-- `A = 16` (5 entries) -/
def quarter16 : List Nat :=
  [16, 15, 11, 6, 0]

/-- `A = 32` (9 entries) -/
def quarter32 : List Nat :=
  [32, 31, 30, 27, 23, 18, 12, 6, 0]

/-- `A = 64` (17 entries) -/
def quarter64 : List Nat :=
  [64, 64, 63, 61, 59, 56, 53, 49, 45, 41, 36, 30, 24, 19, 12, 6,
   0]

/-- `A = 128` (33 entries) -/
def quarter128 : List Nat :=
  [128, 128, 127, 127, 126, 124, 122, 121, 118, 116, 113, 110, 106, 103, 99, 95,
   91, 86, 81, 76, 71, 66, 60, 55, 49, 43, 37, 31, 25, 19, 13, 6,
   0]

/-- `A = 256` (65 entries) -/
def quarter256 : List Nat :=
  [256, 256, 256, 255, 255, 254, 253, 252, 251, 250, 248, 247, 245, 243, 241, 239,
   237, 234, 231, 229, 226, 223, 220, 216, 213, 209, 206, 202, 198, 194, 190, 185,
   181, 177, 172, 167, 162, 157, 152, 147, 142, 137, 132, 126, 121, 115, 109, 104,
   98, 92, 86, 80, 74, 68, 62, 56, 50, 44, 38, 31, 25, 19, 13, 6,
   0]

def quarter512_0 : List Nat :=
  [512, 512, 512, 512, 511, 511, 511, 510, 510, 509, 508, 507, 506, 505, 504, 503,
   502, 501, 500, 498, 497, 495, 493, 492, 490, 488, 486, 484, 482, 480, 478, 475,
   473, 471, 468, 465, 463, 460, 457, 454, 452, 449, 445, 442, 439, 436, 433, 429,
   426, 422, 419, 415, 411, 407, 404, 400, 396, 392, 388, 384, 379, 375, 371, 366]

def quarter512_1 : List Nat :=
  [362, 358, 353, 348, 344, 339, 334, 330, 325, 320, 315, 310, 305, 300, 295, 290,
   284, 279, 274, 269, 263, 258, 252, 247, 241, 236, 230, 225, 219, 213, 207, 202,
   196, 190, 184, 178, 172, 167, 161, 155, 149, 143, 137, 130, 124, 118, 112, 106,
   100, 94, 88, 81, 75, 69, 63, 56, 50, 44, 38, 31, 25, 19, 13, 6]

def quarter512_2 : List Nat :=
  [0]

/-- `A = 512` (129 entries) -/
def quarter512 : List Nat :=
  quarter512_0 ++ quarter512_1 ++ quarter512_2

def quarter1024_0 : List Nat :=
  [1024, 1024, 1024, 1024, 1024, 1024, 1023, 1023, 1023, 1022, 1022, 1022, 1021, 1021, 1020, 1020,
   1019, 1018, 1018, 1017, 1016, 1016, 1015, 1014, 1013, 1012, 1011, 1010, 1009, 1008, 1007, 1006,
   1004, 1003, 1002, 1000, 999, 998, 996, 995, 993, 992, 990, 989, 987, 985, 983, 982,
   980, 978, 976, 974, 972, 970, 968, 966, 964, 962, 960, 958, 955, 953, 951, 948]

def quarter1024_1 : List Nat :=
  [946, 944, 941, 939, 936, 934, 931, 928, 926, 923, 920, 917, 915, 912, 909, 906,
   903, 900, 897, 894, 891, 888, 885, 882, 878, 875, 872, 868, 865, 862, 858, 855,
   851, 848, 844, 841, 837, 834, 830, 826, 822, 819, 815, 811, 807, 803, 799, 796,
   792, 788, 784, 779, 775, 771, 767, 763, 759, 755, 750, 746, 742, 737, 733, 729]

def quarter1024_2 : List Nat :=
  [724, 720, 715, 711, 706, 702, 697, 692, 688, 683, 678, 674, 669, 664, 659, 654,
   650, 645, 640, 635, 630, 625, 620, 615, 610, 605, 600, 595, 590, 584, 579, 574,
   569, 564, 558, 553, 548, 543, 537, 532, 526, 521, 516, 510, 505, 499, 494, 488,
   483, 477, 472, 466, 460, 455, 449, 443, 438, 432, 426, 421, 415, 409, 403, 398]

def quarter1024_3 : List Nat :=
  [392, 386, 380, 374, 369, 363, 357, 351, 345, 339, 333, 327, 321, 315, 309, 303,
   297, 291, 285, 279, 273, 267, 261, 255, 249, 243, 237, 230, 224, 218, 212, 206,
   200, 194, 187, 181, 175, 169, 163, 156, 150, 144, 138, 132, 125, 119, 113, 107,
   100, 94, 88, 82, 75, 69, 63, 57, 50, 44, 38, 31, 25, 19, 13, 6]

def quarter1024_4 : List Nat :=
  [0]

/-- `A = 1024` (257 entries) -/
def quarter1024 : List Nat :=
  quarter1024_0 ++ quarter1024_1 ++ quarter1024_2 ++ quarter1024_3 ++ quarter1024_4

def quarter2048_0 : List Nat :=
  [2048, 2048, 2048, 2048, 2048, 2048, 2048, 2048, 2047, 2047, 2047, 2047, 2047, 2046, 2046, 2046,
   2046, 2045, 2045, 2045, 2044, 2044, 2043, 2043, 2042, 2042, 2041, 2041, 2040, 2040, 2039, 2039,
   2038, 2038, 2037, 2036, 2036, 2035, 2034, 2033, 2033, 2032, 2031, 2030, 2029, 2029, 2028, 2027,
   2026, 2025, 2024, 2023, 2022, 2021, 2020, 2019, 2018, 2017, 2016, 2015, 2013, 2012, 2011, 2010]

def quarter2048_1 : List Nat :=
  [2009, 2007, 2006, 2005, 2004, 2002, 2001, 2000, 1998, 1997, 1995, 1994, 1993, 1991, 1990, 1988,
   1987, 1985, 1984, 1982, 1980, 1979, 1977, 1975, 1974, 1972, 1970, 1969, 1967, 1965, 1963, 1962,
   1960, 1958, 1956, 1954, 1952, 1950, 1949, 1947, 1945, 1943, 1941, 1939, 1937, 1935, 1932, 1930,
   1928, 1926, 1924, 1922, 1920, 1917, 1915, 1913, 1911, 1908, 1906, 1904, 1902, 1899, 1897, 1895]

def quarter2048_2 : List Nat :=
  [1892, 1890, 1887, 1885, 1882, 1880, 1877, 1875, 1872, 1870, 1867, 1865, 1862, 1859, 1857, 1854,
   1851, 1849, 1846, 1843, 1840, 1838, 1835, 1832, 1829, 1826, 1824, 1821, 1818, 1815, 1812, 1809,
   1806, 1803, 1800, 1797, 1794, 1791, 1788, 1785, 1782, 1779, 1776, 1773, 1769, 1766, 1763, 1760,
   1757, 1753, 1750, 1747, 1744, 1740, 1737, 1734, 1730, 1727, 1724, 1720, 1717, 1713, 1710, 1706]

def quarter2048_3 : List Nat :=
  [1703, 1699, 1696, 1692, 1689, 1685, 1682, 1678, 1674, 1671, 1667, 1663, 1660, 1656, 1652, 1649,
   1645, 1641, 1637, 1634, 1630, 1626, 1622, 1618, 1615, 1611, 1607, 1603, 1599, 1595, 1591, 1587,
   1583, 1579, 1575, 1571, 1567, 1563, 1559, 1555, 1551, 1547, 1543, 1538, 1534, 1530, 1526, 1522,
   1517, 1513, 1509, 1505, 1500, 1496, 1492, 1488, 1483, 1479, 1475, 1470, 1466, 1461, 1457, 1453]

def quarter2048_4 : List Nat :=
  [1448, 1444, 1439, 1435, 1430, 1426, 1421, 1417, 1412, 1408, 1403, 1398, 1394, 1389, 1385, 1380,
   1375, 1371, 1366, 1361, 1357, 1352, 1347, 1342, 1338, 1333, 1328, 1323, 1319, 1314, 1309, 1304,
   1299, 1294, 1289, 1285, 1280, 1275, 1270, 1265, 1260, 1255, 1250, 1245, 1240, 1235, 1230, 1225,
   1220, 1215, 1210, 1205, 1200, 1195, 1190, 1184, 1179, 1174, 1169, 1164, 1159, 1153, 1148, 1143]

def quarter2048_5 : List Nat :=
  [1138, 1133, 1127, 1122, 1117, 1112, 1106, 1101, 1096, 1090, 1085, 1080, 1074, 1069, 1064, 1058,
   1053, 1047, 1042, 1037, 1031, 1026, 1020, 1015, 1009, 1004, 999, 993, 988, 982, 976, 971,
   965, 960, 954, 949, 943, 938, 932, 926, 921, 915, 910, 904, 898, 893, 887, 881,
   876, 870, 864, 859, 853, 847, 841, 836, 830, 824, 818, 813, 807, 801, 795, 790]

def quarter2048_6 : List Nat :=
  [784, 778, 772, 766, 760, 755, 749, 743, 737, 731, 725, 719, 714, 708, 702, 696,
   690, 684, 678, 672, 666, 660, 654, 648, 642, 636, 630, 624, 619, 613, 607, 601,
   595, 588, 582, 576, 570, 564, 558, 552, 546, 540, 534, 528, 522, 516, 510, 504,
   498, 492, 485, 479, 473, 467, 461, 455, 449, 443, 436, 430, 424, 418, 412, 406]

def quarter2048_7 : List Nat :=
  [400, 393, 387, 381, 375, 369, 363, 356, 350, 344, 338, 332, 325, 319, 313, 307,
   301, 294, 288, 282, 276, 269, 263, 257, 251, 244, 238, 232, 226, 219, 213, 207,
   201, 194, 188, 182, 176, 169, 163, 157, 151, 144, 138, 132, 126, 119, 113, 107,
   100, 94, 88, 82, 75, 69, 63, 57, 50, 44, 38, 31, 25, 19, 13, 6]

def quarter2048_8 : List Nat :=
  [0]

/-- `A = 2048` (513 entries) -/
def quarter2048 : List Nat :=
  quarter2048_0 ++ quarter2048_1 ++ quarter2048_2 ++ quarter2048_3 ++ quarter2048_4 ++ quarter2048_5 ++
  quarter2048_6 ++ quarter2048_7 ++ quarter2048_8

def quarter4096_0 : List Nat :=
  [4096, 4096, 4096, 4096, 4096, 4096, 4096, 4096, 4096, 4096, 4096, 4095, 4095, 4095, 4095, 4095,
   4095, 4095, 4094, 4094, 4094, 4094, 4094, 4093, 4093, 4093, 4093, 4092, 4092, 4092, 4092, 4091,
   4091, 4091, 4090, 4090, 4090, 4089, 4089, 4089, 4088, 4088, 4088, 4087, 4087, 4086, 4086, 4085,
   4085, 4084, 4084, 4083, 4083, 4082, 4082, 4081, 4081, 4080, 4080, 4079, 4079, 4078, 4077, 4077]

def quarter4096_1 : List Nat :=
  [4076, 4076, 4075, 4074, 4074, 4073, 4072, 4072, 4071, 4070, 4070, 4069, 4068, 4067, 4067, 4066,
   4065, 4064, 4064, 4063, 4062, 4061, 4060, 4060, 4059, 4058, 4057, 4056, 4055, 4054, 4053, 4053,
   4052, 4051, 4050, 4049, 4048, 4047, 4046, 4045, 4044, 4043, 4042, 4041, 4040, 4039, 4038, 4037,
   4036, 4035, 4034, 4032, 4031, 4030, 4029, 4028, 4027, 4026, 4024, 4023, 4022, 4021, 4020, 4019]

def quarter4096_2 : List Nat :=
  [4017, 4016, 4015, 4014, 4012, 4011, 4010, 4008, 4007, 4006, 4005, 4003, 4002, 4001, 3999, 3998,
   3996, 3995, 3994, 3992, 3991, 3989, 3988, 3987, 3985, 3984, 3982, 3981, 3979, 3978, 3976, 3975,
   3973, 3972, 3970, 3969, 3967, 3965, 3964, 3962, 3961, 3959, 3958, 3956, 3954, 3953, 3951, 3949,
   3948, 3946, 3944, 3943, 3941, 3939, 3937, 3936, 3934, 3932, 3930, 3929, 3927, 3925, 3923, 3921]

def quarter4096_3 : List Nat :=
  [3920, 3918, 3916, 3914, 3912, 3910, 3909, 3907, 3905, 3903, 3901, 3899, 3897, 3895, 3893, 3891,
   3889, 3887, 3885, 3883, 3881, 3879, 3877, 3875, 3873, 3871, 3869, 3867, 3865, 3863, 3861, 3859,
   3857, 3854, 3852, 3850, 3848, 3846, 3844, 3842, 3839, 3837, 3835, 3833, 3831, 3828, 3826, 3824,
   3822, 3819, 3817, 3815, 3812, 3810, 3808, 3805, 3803, 3801, 3798, 3796, 3794, 3791, 3789, 3787]

def quarter4096_4 : List Nat :=
  [3784, 3782, 3779, 3777, 3775, 3772, 3770, 3767, 3765, 3762, 3760, 3757, 3755, 3752, 3750, 3747,
   3745, 3742, 3739, 3737, 3734, 3732, 3729, 3727, 3724, 3721, 3719, 3716, 3713, 3711, 3708, 3705,
   3703, 3700, 3697, 3695, 3692, 3689, 3686, 3684, 3681, 3678, 3675, 3673, 3670, 3667, 3664, 3661,
   3659, 3656, 3653, 3650, 3647, 3644, 3642, 3639, 3636, 3633, 3630, 3627, 3624, 3621, 3618, 3615]

def quarter4096_5 : List Nat :=
  [3612, 3609, 3606, 3603, 3600, 3597, 3594, 3591, 3588, 3585, 3582, 3579, 3576, 3573, 3570, 3567,
   3564, 3561, 3558, 3555, 3551, 3548, 3545, 3542, 3539, 3536, 3532, 3529, 3526, 3523, 3520, 3516,
   3513, 3510, 3507, 3504, 3500, 3497, 3494, 3490, 3487, 3484, 3481, 3477, 3474, 3471, 3467, 3464,
   3461, 3457, 3454, 3450, 3447, 3444, 3440, 3437, 3433, 3430, 3426, 3423, 3420, 3416, 3413, 3409]

def quarter4096_6 : List Nat :=
  [3406, 3402, 3399, 3395, 3392, 3388, 3385, 3381, 3378, 3374, 3370, 3367, 3363, 3360, 3356, 3352,
   3349, 3345, 3342, 3338, 3334, 3331, 3327, 3323, 3320, 3316, 3312, 3309, 3305, 3301, 3297, 3294,
   3290, 3286, 3282, 3279, 3275, 3271, 3267, 3264, 3260, 3256, 3252, 3248, 3244, 3241, 3237, 3233,
   3229, 3225, 3221, 3217, 3214, 3210, 3206, 3202, 3198, 3194, 3190, 3186, 3182, 3178, 3174, 3170]

def quarter4096_7 : List Nat :=
  [3166, 3162, 3158, 3154, 3150, 3146, 3142, 3138, 3134, 3130, 3126, 3122, 3118, 3114, 3110, 3106,
   3102, 3097, 3093, 3089, 3085, 3081, 3077, 3073, 3068, 3064, 3060, 3056, 3052, 3048, 3043, 3039,
   3035, 3031, 3026, 3022, 3018, 3014, 3009, 3005, 3001, 2997, 2992, 2988, 2984, 2979, 2975, 2971,
   2967, 2962, 2958, 2953, 2949, 2945, 2940, 2936, 2932, 2927, 2923, 2918, 2914, 2910, 2905, 2901]

def quarter4096_8 : List Nat :=
  [2896, 2892, 2887, 2883, 2878, 2874, 2870, 2865, 2861, 2856, 2852, 2847, 2843, 2838, 2833, 2829,
   2824, 2820, 2815, 2811, 2806, 2802, 2797, 2792, 2788, 2783, 2779, 2774, 2769, 2765, 2760, 2755,
   2751, 2746, 2741, 2737, 2732, 2727, 2723, 2718, 2713, 2709, 2704, 2699, 2694, 2690, 2685, 2680,
   2675, 2671, 2666, 2661, 2656, 2652, 2647, 2642, 2637, 2632, 2628, 2623, 2618, 2613, 2608, 2603]

def quarter4096_9 : List Nat :=
  [2598, 2594, 2589, 2584, 2579, 2574, 2569, 2564, 2559, 2555, 2550, 2545, 2540, 2535, 2530, 2525,
   2520, 2515, 2510, 2505, 2500, 2495, 2490, 2485, 2480, 2475, 2470, 2465, 2460, 2455, 2450, 2445,
   2440, 2435, 2430, 2425, 2420, 2415, 2410, 2405, 2399, 2394, 2389, 2384, 2379, 2374, 2369, 2364,
   2359, 2353, 2348, 2343, 2338, 2333, 2328, 2322, 2317, 2312, 2307, 2302, 2296, 2291, 2286, 2281]

def quarter4096_10 : List Nat :=
  [2276, 2270, 2265, 2260, 2255, 2249, 2244, 2239, 2234, 2228, 2223, 2218, 2213, 2207, 2202, 2197,
   2191, 2186, 2181, 2175, 2170, 2165, 2159, 2154, 2149, 2143, 2138, 2133, 2127, 2122, 2117, 2111,
   2106, 2100, 2095, 2090, 2084, 2079, 2073, 2068, 2062, 2057, 2052, 2046, 2041, 2035, 2030, 2024,
   2019, 2013, 2008, 2002, 1997, 1992, 1986, 1981, 1975, 1970, 1964, 1958, 1953, 1947, 1942, 1936]

def quarter4096_11 : List Nat :=
  [1931, 1925, 1920, 1914, 1909, 1903, 1898, 1892, 1886, 1881, 1875, 1870, 1864, 1858, 1853, 1847,
   1842, 1836, 1830, 1825, 1819, 1813, 1808, 1802, 1797, 1791, 1785, 1780, 1774, 1768, 1763, 1757,
   1751, 1746, 1740, 1734, 1729, 1723, 1717, 1711, 1706, 1700, 1694, 1689, 1683, 1677, 1671, 1666,
   1660, 1654, 1648, 1643, 1637, 1631, 1625, 1620, 1614, 1608, 1602, 1596, 1591, 1585, 1579, 1573]

def quarter4096_12 : List Nat :=
  [1567, 1562, 1556, 1550, 1544, 1538, 1533, 1527, 1521, 1515, 1509, 1503, 1498, 1492, 1486, 1480,
   1474, 1468, 1462, 1457, 1451, 1445, 1439, 1433, 1427, 1421, 1415, 1409, 1404, 1398, 1392, 1386,
   1380, 1374, 1368, 1362, 1356, 1350, 1344, 1338, 1332, 1327, 1321, 1315, 1309, 1303, 1297, 1291,
   1285, 1279, 1273, 1267, 1261, 1255, 1249, 1243, 1237, 1231, 1225, 1219, 1213, 1207, 1201, 1195]

def quarter4096_13 : List Nat :=
  [1189, 1183, 1177, 1171, 1165, 1159, 1153, 1147, 1141, 1135, 1129, 1123, 1117, 1111, 1105, 1099,
   1092, 1086, 1080, 1074, 1068, 1062, 1056, 1050, 1044, 1038, 1032, 1026, 1020, 1014, 1007, 1001,
   995, 989, 983, 977, 971, 965, 959, 953, 946, 940, 934, 928, 922, 916, 910, 904,
   897, 891, 885, 879, 873, 867, 861, 854, 848, 842, 836, 830, 824, 818, 811, 805]

def quarter4096_14 : List Nat :=
  [799, 793, 787, 781, 774, 768, 762, 756, 750, 744, 737, 731, 725, 719, 713, 706,
   700, 694, 688, 682, 675, 669, 663, 657, 651, 644, 638, 632, 626, 620, 613, 607,
   601, 595, 589, 582, 576, 570, 564, 557, 551, 545, 539, 533, 526, 520, 514, 508,
   501, 495, 489, 483, 476, 470, 464, 458, 451, 445, 439, 433, 426, 420, 414, 408]

def quarter4096_15 : List Nat :=
  [401, 395, 389, 383, 376, 370, 364, 358, 351, 345, 339, 333, 326, 320, 314, 308,
   301, 295, 289, 283, 276, 270, 264, 257, 251, 245, 239, 232, 226, 220, 214, 207,
   201, 195, 188, 182, 176, 170, 163, 157, 151, 144, 138, 132, 126, 119, 113, 107,
   101, 94, 88, 82, 75, 69, 63, 57, 50, 44, 38, 31, 25, 19, 13, 6]

def quarter4096_16 : List Nat :=
  [0]

/-- `A = 4096` (1025 entries) -/
def quarter4096 : List Nat :=
  quarter4096_0 ++ quarter4096_1 ++ quarter4096_2 ++ quarter4096_3 ++ quarter4096_4 ++ quarter4096_5 ++
  quarter4096_6 ++ quarter4096_7 ++ quarter4096_8 ++ quarter4096_9 ++ quarter4096_10 ++ quarter4096_11 ++
  quarter4096_12 ++ quarter4096_13 ++ quarter4096_14 ++ quarter4096_15 ++ quarter4096_16

/-- The entries `T(A, 0), ..., T(A, A/4)` for `A = 2^m`, `1 ≤ m ≤ 12`: "A model whose `LOG2_AMAX` is at most 12 may take these lists
as the definition of `T`" (42_twiddle_tables.md R130). `A = 2` needs the one entry `T(2, 0)` (section 2). -/
def quarterList (m : Nat) : List Nat :=
  match m with
  | 1 => [2]
  | 2 => quarter4
  | 3 => quarter8
  | 4 => quarter16
  | 5 => quarter32
  | 6 => quarter64
  | 7 => quarter128
  | 8 => quarter256
  | 9 => quarter512
  | 10 => quarter1024
  | 11 => quarter2048
  | 12 => quarter4096
  | _ => []

/-- The unit of the fixed-point numbers below, `2^128`. -/
def fixOne : Nat := 2 ^ 128

/-- `π` in units of `2^-128`, rounded down. -/
def fixPi : Nat := 1069028584064966747859680373161870783300

/-- The alternating power series of the cosine from its `k`-th term on, in fixed point, for the square `x2` of the angle. -/
def cosSeries (x2 : Nat) : Nat → Nat → Nat → Int
  | 0, _, _ => 0
  | fuel + 1, k, term =>
    (term : Int) - cosSeries x2 fuel (k + 1) (term * x2 / fixOne / ((2 * k + 1) * (2 * k + 2)))

/-- `round(A · cos(2π·j/A))` for `j ≤ A/4` by the formula of 41_twiddle_rom.md R111 with 128 fractional bits, for the base sizes
above 4096 that section 3 does not list: "the formula alone defines the table and the lists must be extended the same way"
(42_twiddle_tables.md R130; log 20). -/
def roundedCosine (A j : Nat) : Nat :=
  let x := 2 * fixPi * j / A
  let x2 := x * x / fixOne
  ((2 * (A : Int) * cosSeries x2 24 0 fixOne + (fixOne : Int)) / (2 * (fixOne : Int))).toNat

/-- The first-quarter entry `q[j]`, `j ≤ A/4`. Every entry lies in `0 .. A` (R111); the bound is written into the definition. -/
def quarterEntry (A j : Nat) : Nat :=
  min A (if A ≤ 4096 then (quarterList (Nat.log2 A)).getD j 0 else roundedCosine A j)

/-- `T(A, i)`, the entry function of 41_twiddle_rom.md R111, by the expansion of 42_twiddle_tables.md R131. -/
def twiddleEntry (A i : Nat) : Int :=
  let j := i % A
  if j ≤ A / 4 then (quarterEntry A j : Int)
  else if j ≤ A / 2 then -(quarterEntry A (A / 2 - j) : Int)
  else if j ≤ 3 * A / 4 then -(quarterEntry A (j - A / 2) : Int)
  else (quarterEntry A (A - j) : Int)

end Sys2Proof.Machine
end

