-- ==== Sys2Proof/Machine/Operands.lean ====
section
/-! DEFINITION. The operand forms: the pure functions on ScaledComplex values, the twiddle lookup, index bit reversal, the
address map of the port. -/

namespace Sys2Proof.Machine

/-! The four operations of 40_scaled_complex.md, on the mathematical integers (R97). -/

/-- `CADD` (R93). -/
def cadd (a b : ScaledComplex) : ScaledComplex := ⟨a.re + b.re, a.im + b.im⟩

/-- `CSUB` (R94). -/
def csub (a b : ScaledComplex) : ScaledComplex := ⟨a.re - b.re, a.im - b.im⟩

/-- `CMUL` (R95). -/
def cmul (a b : ScaledComplex) : ScaledComplex := ⟨a.re * b.re - a.im * b.im, a.re * b.im + a.im * b.re⟩

/-- `CRSH` (R96). -/
def crsh (a : ScaledComplex) (sh : Nat) : ScaledComplex := ⟨floorShift a.re sh, floorShift a.im sh⟩

/-! The twiddle lookup of 41_twiddle_rom.md R116. -/

/-- Where `TWLK(z, P)` is defined: a valid table with `A ≥ 4`, `P` a power of two with `4 ≤ P ≤ A`, `z < P`. R116 has the same with
`2 ≤ P` and gives the treatment of other calls to 93_implementation_defined.md U4, which counts `P < 4` among them: "a model must
make it partial, not return a number". The narrower domain is taken (log 13). -/
abbrev LookupDefined (s : State) (z P : Nat) : Prop :=
  s.status.tableValid = true ∧ 4 ≤ s.tableA ∧ isPow2 P = true ∧ 4 ≤ P ∧ P ≤ s.tableA ∧ z < P

/-- `index = (A / P) * z` (R116). -/
def lookupIndex (A z P : Nat) : Nat := A / P * z

/-- `TWLK(z, P)`, `none` outside the preconditions. -/
def lookup (s : State) (z P : Nat) : Option ScaledComplex :=
  if LookupDefined s z P then
    some ⟨load s .tw (lookupIndex s.tableA z P), load s .tw (lookupIndex s.tableA z P + quarterOffset s.tableA)⟩
  else none

/-! Index bit reversal, 43_bit_reversal.md R135. -/

/-- The low `m` bits of `j` in the opposite order: bit `b` of `j` becomes bit `m - 1 - b`. -/
def reverseBits : Nat → Nat → Nat
  | 0, _ => 0
  | m + 1, j => (j % 2) * 2 ^ m + reverseBits m (j / 2)

/-- `BREV(j, N)` for `N` a power of two and `j < N`. -/
def bitReverse (j N : Nat) : Nat := reverseBits (Nat.log2 N) j

/-! The word-address map of 20_memory.md R53, R55. -/

/-- What a word address of the port reaches. -/
inductive Target where
  | cmd
  | status
  | tableA
  | re (i : Nat)
  | im (i : Nat)
  | tw (i : Nat)
  /-- an offset with no word behind it (R55) -/
  | hole
  deriving DecidableEq, Repr

/-- The top two of the `LOG2_AMAX + 3` address bits (R53). Higher bits of the number are no pins and are not looked at (log 17). -/
def addrSpace (c : Params) (addr : Nat) : Nat := addr / 2 ^ (c.log2Amax + 1) % 4

/-- The other `LOG2_AMAX + 1` address bits, the offset (R53). -/
def addrOffset (c : Params) (addr : Nat) : Nat := addr % 2 ^ (c.log2Amax + 1)

/-- The address map (R53). A `TW` offset is a target whether or not a table is valid; which offsets are legal is decided at the
read (`hostRead`). -/
def target (c : Params) (addr : Nat) : Target :=
  let off := addrOffset c addr
  match addrSpace c addr with
  | 0 => match off with
    | 0 => .cmd
    | 1 => .status
    | 2 => .tableA
    | _ => .hole
  | 1 => if off < c.amax then .re off else .hole
  | 2 => if off < c.amax then .im off else .hole
  | _ => .tw off

/-- `RE_BASE`, `IM_BASE`, `TW_BASE` (R53). -/
def spaceBase (c : Params) : Space → Nat
  | .re => 2 * c.amax
  | .im => 4 * c.amax
  | .tw => 6 * c.amax

end Sys2Proof.Machine
end

