-- ==== Sys2Proof/Machine/BitReversal.lean ====
section
/-! DEFINITION. The unit bit_reversal_unit: BREV and BRPASS, 43_bit_reversal.md. -/

namespace Sys2Proof.Machine

/-- `BREV(j, N)` (R135). Outside its contract (`N` no size, or `j ≥ N`) the spec states no result: the index is a free value
(log 12). -/
def execBrev (j N : Nat) (s : State) : Answer :=
  if isSize s.cfg N ∧ j < N then deliver (.index (bitReverse j N)) s
  else deliver (.index (Config.freeIndex s.draws j)) s

/-- `n = BREV(i, N)` in the loop of R137. For an `N` that is no size of the block the index is the free one of `BREV`, as an index of
`RE`, which has `AMAX` words (20_memory.md R50; log 12). -/
def passIndex (s : State) (i N : Nat) : Nat :=
  if isSize s.cfg N then bitReverse i N else Config.freeIndex s.draws i % s.cfg.amax

/-- `tmp = RE[i]; RE[i] <- RE[n]; RE[n] <- tmp` (R137). -/
def swapRe (i n : Nat) (s : State) : State :=
  put (put s .re i (load s .re n)) .re n (load s .re i)

/-- One turn of the loop of R137. -/
def reorderAt (N : Nat) (s : State) (i : Nat) : State :=
  if i < passIndex s i N then swapRe i (passIndex s i N) s else s

/-- `BRPASS(N)` (R137), the loop over `i` in `0 .. N-1`, ascending. `IM` is not permuted (R138). -/
def execBrpass (N : Nat) (s : State) : Answer := .next ((List.range N).foldl (reorderAt N) s)

end Sys2Proof.Machine
end

