-- ==== Sys2Proof/Machine/Butterfly.lean ====
section
/-! DEFINITION. The transform's operations PAIR0, BFLY and DBFLY, 44_butterfly_engine.md. -/

namespace Sys2Proof.Machine

/-- `PAIR0(i)` (R153): both words are read before either is written; `IM` is neither read nor written. The rule's operand is an even
index; the model runs the combine at an odd one too (log 25, DESIGN CHOICE). -/
def execPair0 (i : Nat) (s : State) : Answer :=
  if i + 1 < s.cfg.amax then
    andThen (store .re i (load s .re i + load s .re (i + 1)) s)
      (store .re (i + 1) (load s .re i - load s .re (i + 1)))
  else .refused .noSuchWord

/-- The operand registers of one butterfly (10_state.md R29; R156): the even tap `a`, the odd tap `b`, the twiddle pair and the
rescaled product. The spec leaves what these registers hold after a butterfly and after a run open (10_state.md R29, 45_commands.md
R191, 93_implementation_defined.md U10); the model keeps the values latched last (log 24, DESIGN CHOICE). -/
def latch (s : State) (a b m : Nat) (w : ScaledComplex) : OperandRegs :=
  { e := loadTap s a, o := loadTap s b, w := w, t := crsh (cmul (loadTap s b) w) m }

/-- The body of one butterfly (R156): all loads are made before any store. The rule's operands have `z < p` and `b = a + k2`, and those
of R158 an even `i` and `k2 = p`; the model runs the body at any operands whose words exist and whose lookup is defined, which takes
`p ≥ 2` (log 13, 25, DESIGN CHOICE). -/
def butterfly (a b z p m : Nat) (s : State) : Answer :=
  if a < s.cfg.amax ∧ b < s.cfg.amax then
    match lookup s z (2 * p) with
    | none => .refused .lookupOutsideContract
    | some w =>
      let r := latch s a b m w
      andThen (storeTap a (cadd r.e r.t) (s.setOpnd r)) (storeTap b (csub r.e r.t))
  else .refused .noSuchWord

/-- `z = z + 1; if z == p: z = 0` (R158). -/
def nextZ (z p : Nat) : Nat := if z + 1 = p then 0 else z + 1

/-- `BFLY(a, b, z, p, M)` (R156). -/
def execBfly (a b z p M : Nat) (s : State) : Answer := butterfly a b z p M s

/-- `DBFLY(i, k2, z, p, M)` (R158): the even pair, then the odd pair, each with its own twiddle index; returns the new `z`. -/
def execDbfly (i k2 z p M : Nat) (s : State) : Answer :=
  andThen (butterfly i (i + k2) z p M s) fun s1 =>
    andThen (butterfly (i + 1) (i + 1 + k2) (nextZ z p) p M s1)
      (deliver (.index (nextZ (nextZ z p) p)))

end Sys2Proof.Machine
end

