-- ==== Sys2Proof/Machine/Commands.lean ====
section
/-! DEFINITION. The four Host commands (45_commands.md R181 to R184): what the write of the command word to CMD does. The bodies of
BUILD and XFORM and their completion are the sequencer's (Machine/Sequencer.lean). -/

namespace Sys2Proof.Machine

/-- `check(BUILD(A))` (60_exceptions.md R212). -/
def checkBuild (A : Nat) (s : State) : Option Cause :=
  if isSize s.cfg A then none else some .badSize

/-- `check(XFORM(N))` (60_exceptions.md R212). -/
def checkXform (N : Nat) (s : State) : Option Cause :=
  if ¬ isSize s.cfg N then some .badSize
  else if ¬ s.status.tableValid then some .noTable
  else if s.tableA ≠ N then some .sizeMismatch
  else none

/-- `check(RELEASE)` (60_exceptions.md R212). -/
def checkRelease (s : State) : Option Cause :=
  if s.status.tableValid then none else some .noTable

/-- `BUILD(A), on acceptance` (45_commands.md R181). The table index starts at 0 (41_twiddle_rom.md R115); `SEQ.m` is `log2(SEQ.n)`
as 10_state.md R26 says (log 18). -/
def acceptBuild (A : Nat) (s : State) : State :=
  ((dropTable s).setStatus (dropTable s).status.start).setSeq
    { s.seq with phase := .building, n := A, m := Nat.log2 A, i := 0 }

/-- `XFORM(N), on acceptance` (45_commands.md R182). -/
def acceptXform (N : Nat) (s : State) : State :=
  (s.setStatus s.status.start).setSeq { s.seq with phase := .permute, n := N, m := Nat.log2 N }

/-- `RELEASE, on acceptance` (45_commands.md R183). -/
def acceptRelease (s : State) : State :=
  (dropTable s).setStatus (dropTable s).status.accept

/-- `BUILD A` (45_commands.md R181). -/
def execBuild (size : BitVec 16) (s : State) : Answer :=
  issue (checkBuild size.toNat) (acceptBuild size.toNat) s

/-- `XFORM N` (45_commands.md R182). -/
def execXform (size : BitVec 16) (s : State) : Answer :=
  issue (checkXform size.toNat) (acceptXform size.toNat) s

/-- `RELEASE` (45_commands.md R183). -/
def execRelease (s : State) : Answer :=
  issue checkRelease acceptRelease s

/-- `CLRSTAT` (45_commands.md R184). -/
def execClrstat (s : State) : Answer :=
  issue (fun _ => none) acknowledge s

end Sys2Proof.Machine
end

