-- ==== Sys2Proof/Machine/ComplexArith.lean ====
section
/-! DEFINITION. The unit scaled_complex_multiplier (CADD, CSUB, CMUL) and the unit fixed_point_scaler (CRSH), 40_scaled_complex.md. They
read no memory, no flag and no earlier result and write nothing but their result (R100). -/

namespace Sys2Proof.Machine

/-- `CADD(a, b)` (R93). -/
def execCadd (a b : ScaledComplex) (s : State) : Answer := deliver (.complex (cadd a b)) s

/-- `CSUB(a, b)` (R94). -/
def execCsub (a b : ScaledComplex) (s : State) : Answer := deliver (.complex (csub a b)) s

/-- `CMUL(a, b)` (R95). -/
def execCmul (a b : ScaledComplex) (s : State) : Answer := deliver (.complex (cmul a b)) s

/-- `CRSH(a, sh)` (R96); "a negative `sh` has no meaning and is refused", and the floor formula serves every `sh ≥ 0` (R101). -/
def execCrsh (a : ScaledComplex) (sh : Int) (s : State) : Answer :=
  if sh < 0 then .refused .negativeShift else deliver (.complex (crsh a sh.toNat)) s

end Sys2Proof.Machine
end

