-- ==== Sys2Proof/Machine/TwiddleRom.lean ====
section
/-! DEFINITION. The unit twiddle_rom: TWLK and TWGEN, 41_twiddle_rom.md. -/

namespace Sys2Proof.Machine

/-- `TWLK(z, P)` (R116). Outside the preconditions it is refused (93_implementation_defined.md U4). -/
def execTwlk (z P : Nat) (s : State) : Answer :=
  match lookup s z P with
  | some w => deliver (.complex w) s
  | none => .refused .lookupOutsideContract

/-- The entry `TWGEN` makes: `T(A, i)` for every base size of the block (R111, 00_scope.md R8). For any other `A` the spec states no
entry: a free value of `TW_W` bits (log 26). -/
def generatedEntry (s : State) (A i : Nat) : Int :=
  if isSize s.cfg A then twiddleEntry A i else signedLow s.cfg.twW (Config.freeEntry s.draws)

/-- `TWGEN(A, i)`: `TW[i] <- T(A, i)` (R115). -/
def execTwgen (A i : Nat) (s : State) : Answer :=
  if i < Params.spaceWords s.cfg .tw then .next (put s .tw i (generatedEntry s A i)) else .refused .noSuchWord

end Sys2Proof.Machine
end

