-- ==== Sys2Proof/Machine/Dispatch.lean ====
section
/-! DEFINITION. One arm for each constructor of Instr. -/

namespace Sys2Proof.Machine

def exec (i : Instr) (s : State) : Host.Outcome State Fault Refusal :=
  match i with
  | .build size => Sys2Proof.Machine.execBuild size s
  | .xform size => Sys2Proof.Machine.execXform size s
  | .release => Sys2Proof.Machine.execRelease s
  | .clrstat => Sys2Proof.Machine.execClrstat s
  | .cadd a b => Sys2Proof.Machine.execCadd a b s
  | .csub a b => Sys2Proof.Machine.execCsub a b s
  | .cmul a b => Sys2Proof.Machine.execCmul a b s
  | .crsh a sh => Sys2Proof.Machine.execCrsh a sh s
  | .twlk z P => Sys2Proof.Machine.execTwlk z P s
  | .brev j N => Sys2Proof.Machine.execBrev j N s
  | .brpass N => Sys2Proof.Machine.execBrpass N s
  | .pair0 j => Sys2Proof.Machine.execPair0 j s
  | .bfly a b z p M => Sys2Proof.Machine.execBfly a b z p M s
  | .dbfly j k2 z p M => Sys2Proof.Machine.execDbfly j k2 z p M s
  | .twgen A j => Sys2Proof.Machine.execTwgen A j s

end Sys2Proof.Machine
end

