-- ==== Sys2Proof/Machine/Sequencer.lean ====
section
/-! DEFINITION. The sequencer (10_state.md R26, R27): which operation the Engine makes in each phase, and how SEQ advances after it. -/

namespace Sys2Proof.Machine

/-- `BUILD(A), completion` (45_commands.md R181). -/
def completeBuild (s : State) : State :=
  ((s.setTableA s.seq.n).setStatus (s.status.complete.setTableValid true)).setSeq { s.seq with phase := .idle }

/-- `XFORM(N), completion` (45_commands.md R182). The counters of SEQ and the operand registers, which the spec leaves unspecified after
a run (R191), keep their last values (log 18, 24, DESIGN CHOICE). -/
def completeXform (s : State) : State :=
  (s.setStatus s.status.complete).setSeq { s.seq with phase := .idle }

/-- After `TWGEN(A, i)`: the loop of 41_twiddle_rom.md R115, "BUILD body". -/
def afterTwgen (s : State) : State :=
  let s1 := s.setSeq { s.seq with i := s.seq.i + 1 }
  if s.seq.i + 1 < depth s.seq.n then s1 else completeBuild s1

/-- After `BRPASS(N)`: `PERMUTE` moves to `STAGE0` (10_state.md R27). -/
def afterBrpass (s : State) : State :=
  s.setSeq { s.seq with phase := .stage0, i := 0 }

/-- The start of `GENERAL` (44_butterfly_engine.md R159). -/
def startGeneral (q : Seq) : Seq :=
  { q with phase := .general, g := 0, k := 1, p := 2, i := 0, cnt := 0, z := 0 }

/-- After `PAIR0(i)`: the loop of 44_butterfly_engine.md R154, then `GENERAL` when `M ≥ 2`, else completion. -/
def afterPair0 (s : State) : State :=
  if s.seq.i + 2 ≤ s.seq.n - 2 then s.setSeq { s.seq with i := s.seq.i + 2 }
  else if 2 ≤ s.seq.m then s.setSeq (startGeneral s.seq)
  else completeXform (s.setSeq { s.seq with i := s.seq.i + 2 })

/-- The counters after one dual butterfly (44_butterfly_engine.md R159): `z` as returned, `cnt` and `i` advanced, the jump over the
upper half of the group. -/
def advanceLoop (q : Seq) (z : Nat) : Seq :=
  if q.cnt + 1 = q.k then { q with z := z, cnt := 0, i := q.i + 2 + 2 * q.k }
  else { q with z := z, cnt := q.cnt + 1, i := q.i + 2 }

/-- The end of a stage (44_butterfly_engine.md R159): `k = 2 * k; p = 2 * p`. -/
def endStage (q : Seq) : Seq := { q with k := 2 * q.k, p := 2 * q.p }

/-- The start of the next stage: `g` steps, `z`, `cnt` and `i` start at 0 (44_butterfly_engine.md R159). -/
def nextStage (q : Seq) : Seq := { q with g := q.g + 1, i := 0, cnt := 0, z := 0 }

/-- The index an operation returned. -/
def Result.toIndex : Result → Nat
  | .index j => j
  | _ => 0

/-- After `DBFLY`: the `while` test `i ≤ N - 3` and the stage loop `for g in 0 .. M-2` (44_butterfly_engine.md R159). -/
def afterDbfly (s : State) : State :=
  let q := advanceLoop s.seq s.result.toIndex
  if q.i + 3 ≤ q.n then s.setSeq q
  else if q.g + 2 < q.m then s.setSeq (nextStage (endStage q))
  else completeXform (s.setSeq (endStage q))

/-- The operation the Engine makes next, with its operands from SEQ; none when it is idle. -/
def nextOperation (q : Seq) : Option Instr :=
  match q.phase with
  | .idle => none
  | .building => some (.twgen q.n q.i)
  | .permute => some (.brpass q.n)
  | .stage0 => some (.pair0 q.i)
  | .general => some (.dbfly q.i (2 * q.k) q.z q.p q.m)

/-- How SEQ and the flags advance after the operation of a phase. -/
def advance (ph : Phase) (s : State) : State :=
  match ph with
  | .idle => s
  | .building => afterTwgen s
  | .permute => afterBrpass s
  | .stage0 => afterPair0 s
  | .general => afterDbfly s

/-- One operation of the Engine: the operation of the phase, then the advance. -/
def engineOp (s : State) : Answer :=
  match nextOperation s.seq with
  | none => .next s
  | some i => andThen (exec i s) fun t => .next (advance s.seq.phase t)

end Sys2Proof.Machine
end

