-- ==== Sys2Proof/Machine/HostPort.lean ====
section
/-! DEFINITION. The Host port (10_state.md R22; 20_memory.md R50 to R57; 45_commands.md R180, R185 to R188; 60_exceptions.md
R218; 70_reset_and_hazards.md R240). -/

namespace Sys2Proof.Machine

/-- A write of a word to `CMD` (45_commands.md R180): busy first, then decode, then the command. -/
def writeCmd (w : PortWord) (s : State) : Answer :=
  match decodeCmd w with
  | some i => exec i s
  | none => if s.status.busy then .next (reject .busyViolation s) else .next (reject .illegalCmd s)

/-- A write to word `i` of `RE` or `IM` (45_commands.md R186, 20_memory.md R56): rejected while BUSY. -/
def writeSample (sp : Space) (i : Nat) (d : PortWord) (s : State) : State :=
  if s.status.busy then reject .busyViolation s else put s sp i (signedLow s.cfg.sampleW d)

/-- A Host write (20_memory.md R53, R55; 45_commands.md R185, R186; 60_exceptions.md R218). -/
def hostWrite (addr : Nat) (d : PortWord) (s : State) : Answer :=
  match target s.cfg addr with
  | .cmd => writeCmd d s
  | .re i => .next (writeSample .re i d s)
  | .im i => .next (writeSample .im i d s)
  | .status => .next s
  | .tableA => .next s
  | .tw _ => .next s
  | .hole => .next s

/-- The word a Host read of a memory returns (45_commands.md R187, R188): unspecified while BUSY (60_exceptions.md R218; log 6). -/
def readMemory (sp : Space) (i : Nat) (s : State) : PortWord :=
  if s.status.busy then Config.freeRead s.draws else sext32 (load s sp i)

/-- The word a Host read of `TW` returns (45_commands.md R188, 20_memory.md R55). -/
def readTable (i : Nat) (s : State) : PortWord :=
  if s.status.busy then Config.freeRead s.draws
  else if s.status.tableValid ∧ i < depth s.tableA then sext32 (load s .tw i) else 0

/-- The word a Host read returns (20_memory.md R53 to R57; 45_commands.md R185, R187, R188). -/
def hostRead (addr : Nat) (s : State) : PortWord :=
  match target s.cfg addr with
  | .cmd => 0
  | .status => s.status.word
  | .tableA => BitVec.ofNat 32 s.tableA
  | .re i => readMemory .re i s
  | .im i => readMemory .im i s
  | .tw i => readTable i s
  | .hole => 0

/-- The Host's access at one edge (10_state.md R22): a write, a read, or none. -/
def hostAccess (c : PortCycle) (s : State) : Answer :=
  if c.sel then
    if c.we then hostWrite c.addr c.wdata s else .next (s.setRdata (some (hostRead c.addr s)))
  else .next s

/-- A rising edge with `rst = 1` (70_reset_and_hazards.md R240, R242): the reset state of 10_state.md R36, whatever the block was
doing; the access is ignored and a read returns 0. The parameters, the Host's coming cycles and the counter of free values are
not the block's and stay. -/
def resetEdge (c : PortCycle) (s : State) : State :=
  { State.reset with
    cfg := s.cfg, host := s.host, draws := s.draws,
    rdata := if c.sel ∧ ¬ c.we then some 0 else none }

/-- One rising edge of `clk` (10_state.md R22): reset, or the Host's access and then, when the Engine was busy before the edge and
the schedule lets it, one Engine operation. The access is judged against the `BUSY` of before the edge (60_exceptions.md R213). -/
def portEdge (c : PortCycle) (s : State) : Answer :=
  if c.rst then .next (resetEdge c s)
  else
    andThen (hostAccess c s) fun t =>
      if s.status.busy ∧ c.engine then engineOp t else .next t

/-- An internal operation from the select lines (30_encoding.md R70, R74); codes that name no operation are refused (R76). -/
def runUop (u : UopWord) (s : State) : Answer :=
  match decodeUop u with
  | some i => exec i s
  | none => .refused .unusedCode

/-- A cycle in which the Host makes no access. -/
def quietCycle (engine : Bool) : PortCycle :=
  { rst := false, sel := false, we := false, addr := 0, wdata := 0, engine := engine }

/-- A write cycle. -/
def writeCycle (addr : Nat) (d : PortWord) (engine : Bool) : PortCycle :=
  { rst := false, sel := true, we := true, addr := addr, wdata := d, engine := engine }

/-- A read cycle. -/
def readCycle (addr : Nat) (engine : Bool) : PortCycle :=
  { rst := false, sel := true, we := false, addr := addr, wdata := 0, engine := engine }

end Sys2Proof.Machine
end

