-- ==== Sys2Proof/Machine/Step.lean ====
section
/-! DEFINITION. One step of the block: an internal operation from the select lines, or one clock edge. -/

namespace Sys2Proof.Machine

/-- What every step does first: the free values advance (log 4) and `rdata` is no longer valid (10_state.md R22). -/
def State.nextEdge (s : State) : State := { s with draws := s.draws + 1, rdata := none }

/-- One step (log 8, 10). An operation on the select lines is run by itself. Else the step is one clock edge with the Host's next
cycle; when the Host has no more cycles it is quiet and the Engine goes on (70_reset_and_hazards.md R252). -/
def step (s : State) : Host.Outcome State Fault Refusal :=
  match s.uop with
  | some u => runUop u { s.nextEdge with uop := none }
  | none =>
    match s.host with
    | c :: rest => portEdge c { s.nextEdge with host := rest }
    | [] => portEdge (quietCycle true) s.nextEdge

/-- The state whose next step runs the instruction of a table word: a command word is the Host's next access, a write to `CMD`; a
select code stands on the `UOP` lines with operand lines of zeros (log 10, 21). A word of neither format changes nothing. -/
def State.withFetchWord (s : State) (nbits w : Nat) : State :=
  match tableWord nbits w with
  | some (.cmd c) => { s with uop := none, host := writeCycle 0 c false :: s.host }
  | some (.uop u) => { s with uop := some u }
  | none => s

end Sys2Proof.Machine
end

