-- ==== Sys2Proof/Machine/HostProgram.lean ====
section
/-! DEFINITION. The notation of 30_encoding.md: the Host actions of R78, the pseudo-instructions of R79, and a Host that works
through a program of them. -/

namespace Sys2Proof.Machine

/-- A Host action (30_encoding.md R78). -/
inductive HostAction where
  | build (A : BitVec 16)
  | xform (N : BitVec 16)
  | release
  | clrstat
  | cmdw (w : PortWord)
  | wrre (i : Nat) (v : PortWord)
  | wrim (i : Nat) (v : PortWord)
  | rdre (i : Nat)
  | rdim (i : Nat)
  | rdtw (i : Nat)
  | rdst
  | rdta
  deriving DecidableEq, Repr

/-- The port cycle of a Host action (30_encoding.md R78). -/
def HostAction.cycle (c : Params) (engine : Bool) : HostAction → PortCycle
  | .build A => writeCycle 0 (cmdWord A 1) engine
  | .xform N => writeCycle 0 (cmdWord N 2) engine
  | .release => writeCycle 0 3 engine
  | .clrstat => writeCycle 0 4 engine
  | .cmdw w => writeCycle 0 w engine
  | .wrre i v => writeCycle (spaceBase c .re + i) v engine
  | .wrim i v => writeCycle (spaceBase c .im + i) v engine
  | .rdre i => readCycle (spaceBase c .re + i) engine
  | .rdim i => readCycle (spaceBase c .im + i) engine
  | .rdtw i => readCycle (spaceBase c .tw + i) engine
  | .rdst => readCycle 1 engine
  | .rdta => readCycle 2 engine

/-- A line of a Host program: an action of R78, or `WAIT` of R79, whose length depends on what it reads. -/
inductive HostLine where
  | act (a : HostAction)
  | wait
  deriving DecidableEq, Repr

/-- The access of a line at one edge. `WAIT` makes `RDST` (R79). -/
def HostLine.cycle (c : Params) (engine : Bool) : HostLine → PortCycle
  | .act a => a.cycle c engine
  | .wait => HostAction.rdst.cycle c engine

/-- Bit 0 (`BUSY`) of the value the last access read. -/
def readsBusy (s : State) : Bool :=
  match s.rdata with
  | some d => d.getLsbD 0
  | none => false

/-- Whether a line is made again after an access: `WAIT` repeats "until the value read has bit 0 (`BUSY`) equal to 0" (R79). -/
def HostLine.again (l : HostLine) (t : State) : Bool :=
  match l with
  | .act _ => false
  | .wait => readsBusy t

/-- What a Host program answers: the state and the lines that are left. -/
abbrev ProgramAnswer := Host.Outcome (State × List HostLine) Fault Refusal

/-- One edge of a Host at the first line of its program: a step with that line's access, and the lines that are left after it. A Host
with no line left does nothing. -/
def programEdge (engine : Bool) (lines : List HostLine) (s : State) : ProgramAnswer :=
  match lines with
  | [] => .next (s, [])
  | l :: rest =>
    match step { s with host := [l.cycle s.cfg engine] } with
    | .next t => .next (t, if l.again t then l :: rest else rest)
    | .fault x => .fault x
    | .refused x => .refused x

/-- The edges of a Host program, one for each element of the schedule, which says whether a busy Engine works at that edge: how long a
command takes, and so how often `WAIT` polls, is not specified (70_reset_and_hazards.md R251; log 22). -/
def runProgram : List Bool → List HostLine → State → ProgramAnswer
  | [], lines, s => .next (s, lines)
  | e :: es, lines, s =>
    match programEdge e lines s with
    | .next (t, left) => runProgram es left t
    | .fault x => .fault x
    | .refused x => .refused x

/-! The pseudo-instructions (R79). -/

/-- `WAIT` -/
def pseudoWait : List HostLine := [.wait]

/-- The writes of a list of values to consecutive indexes, from `i` on. -/
def writeFrom (wr : Nat → PortWord → HostAction) : Nat → List PortWord → List HostLine
  | _, [] => []
  | i, v :: vs => .act (wr i v) :: writeFrom wr (i + 1) vs

/-- `LOADRE N, [v0, ..., v(N-1)]`, `N` the length of the list -/
def pseudoLoadRe (vs : List PortWord) : List HostLine := writeFrom .wrre 0 vs

/-- `ZEROIM N` -/
def pseudoZeroIm (N : Nat) : List HostLine := writeFrom .wrim 0 (List.replicate N 0)

/-- `SETUP A` -/
def pseudoSetup (A : BitVec 16) : List HostLine := .act (.build A) :: pseudoWait

/-- `FFT N, [v0, ..., v(N-1)]` -/
def pseudoFft (N : BitVec 16) (vs : List PortWord) : List HostLine :=
  pseudoLoadRe vs ++ pseudoZeroIm N.toNat ++ .act (.xform N) :: pseudoWait

end Sys2Proof.Machine
end

