-- ==== Sys2Proof/Safety.lean ====
section
/-! DEFINITION. What the claims are stated in: the invariant of the block, runs, and the transform as the composition of its stages. -/

namespace Sys2Proof.Machine

/-! The invariant. -/

/-- A memory in canonical form whose cells lie inside the space and fit its width (20_memory.md R50, R51). -/
abbrev MemoryOk (c : Params) (sp : Space) (m : Memory) : Prop :=
  m.wf ∧ ∀ x ∈ m, x.1 < Params.spaceWords c sp ∧ fits (Params.spaceW c sp) x.2

/-- The flags: `BUSY = 1` exactly when the phase is not `IDLE` (10_state.md R26); never `BUSY` and `DONE` together (45_commands.md
R189); `ERR_CODE` is 0 without `ERR` and a code of 60_exceptions.md R211 with it. -/
abbrev FlagsOk (s : State) : Prop :=
  (s.status.busy = true ↔ s.seq.phase ≠ .idle) ∧ ¬(s.status.busy = true ∧ s.status.done = true) ∧
  (s.status.err = false → s.status.errCode = 0) ∧
  (s.status.err = true → 1 ≤ s.status.errCode.toNat ∧ s.status.errCode.toNat ≤ 5)

/-- The table descriptor (10_state.md R25). -/
abbrev DescriptorOk (s : State) : Prop :=
  (s.status.tableValid = true ↔ isSize s.cfg s.tableA = true) ∧ (s.status.tableValid = false ↔ s.tableA = 0)

/-- `TW[i] = T(A, i)` for every `i` below `n` (41_twiddle_rom.md R115). -/
abbrev TableHolds (tw : Memory) (A n : Nat) : Prop := ∀ i < n, tw.find i = some (twiddleEntry A i)

/-- A valid table holds its entries (10_state.md R24). -/
abbrev TableOk (s : State) : Prop := s.status.tableValid = true → TableHolds s.tw s.tableA (depth s.tableA)

/-- The size operand and the stage count of the command in progress (10_state.md R26). -/
abbrev SizeOk (s : State) : Prop := isSize s.cfg s.seq.n = true ∧ s.seq.m = Nat.log2 s.seq.n

/-- A transform in progress has its table (44_butterfly_engine.md R151). -/
abbrev XformOk (s : State) : Prop := SizeOk s ∧ s.status.tableValid = true ∧ s.tableA = s.seq.n

/-- The counters of the sequencer in each phase (10_state.md R26, R27; 44_butterfly_engine.md R154, R155, R159, R160). -/
abbrev SeqOk (s : State) : Prop :=
  (s.seq.phase = .building →
    SizeOk s ∧ s.status.tableValid = false ∧ s.seq.i < depth s.seq.n ∧ TableHolds s.tw s.seq.n s.seq.i) ∧
  (s.seq.phase = .permute → XformOk s) ∧
  (s.seq.phase = .stage0 → XformOk s ∧ s.seq.i % 2 = 0 ∧ s.seq.i + 2 ≤ s.seq.n) ∧
  (s.seq.phase = .general →
    XformOk s ∧ s.seq.g + 2 ≤ s.seq.m ∧ s.seq.k = 2 ^ s.seq.g ∧ s.seq.p = 2 ^ (s.seq.g + 1) ∧ s.seq.cnt < s.seq.k ∧
    s.seq.z = 2 * s.seq.cnt ∧ s.seq.i % (4 * s.seq.k) = 2 * s.seq.cnt ∧ s.seq.i + 3 ≤ s.seq.n)

/-- Every counter fits the register that 10_state.md R26 gives it, in every phase (R27, "No counter wraps"). -/
abbrev SeqFits (s : State) : Prop :=
  s.seq.n < 2 ^ (s.cfg.log2Amax + 1) ∧ s.seq.m < 16 ∧ s.seq.g < 16 ∧ s.seq.k < 2 ^ s.cfg.log2Amax ∧
  s.seq.p < 2 ^ (s.cfg.log2Amax + 1) ∧ s.seq.i < 2 ^ (s.cfg.log2Amax + 1) ∧ s.seq.cnt < 2 ^ s.cfg.log2Amax ∧
  s.seq.z < 2 ^ s.cfg.log2Amax

/-- Both parts of a ScaledComplex value fit `ACC_W` bits (40_scaled_complex.md R90, R99). -/
abbrev FitsAcc (c : Params) (v : ScaledComplex) : Prop := fits c.accW v.re ∧ fits c.accW v.im

/-- The operand registers hold `ACC_W`-bit values (10_state.md R29). -/
abbrev OperandsOk (s : State) : Prop :=
  FitsAcc s.cfg s.opnd.e ∧ FitsAcc s.cfg s.opnd.o ∧ FitsAcc s.cfg s.opnd.w ∧ FitsAcc s.cfg s.opnd.t

/-- The invariant of the block. The last part says that no internal operation stands on the select lines from outside the sequencer:
the hardware has no such input (30_encoding.md R70; log 10). -/
abbrev Inv (s : State) : Prop :=
  s.cfg.Legal ∧ MemoryOk s.cfg .re s.re ∧ MemoryOk s.cfg .im s.im ∧ MemoryOk s.cfg .tw s.tw ∧ FlagsOk s ∧
  DescriptorOk s ∧ TableOk s ∧ SeqOk s ∧ SeqFits s ∧ OperandsOk s ∧ s.uop = none

/-! Runs. -/

/-- `k` steps, stopping at the first fault or refusal. -/
def run : Nat → State → Answer
  | 0, s => .next s
  | k + 1, s => andThen (step s) (run k)

/-- Nothing is to come from outside: the Host makes no further access and no operation stands on the select lines. -/
abbrev Alone (s : State) : Prop := s.host = [] ∧ s.uop = none

/-- The next edge is one of the port, with this cycle. -/
abbrev NextCycle (s : State) (c : PortCycle) (rest : List PortCycle) : Prop := s.uop = none ∧ s.host = c :: rest

/-- A cycle in which the Host writes a word to what an address reaches. -/
abbrev Writes (s : State) (c : PortCycle) (tg : Target) : Prop :=
  c.rst = false ∧ c.sel = true ∧ c.we = true ∧ target s.cfg c.addr = tg

/-- The state at which the access of the next edge is made: the cycle is consumed, the free values advance, `rdata` is not valid. -/
def atEdge (s : State) (rest : List PortCycle) : State :=
  { s with host := rest, draws := s.draws + 1, rdata := none }

/-- An answer seen through a function of the state. -/
def Answer.map {α : Type} (f : State → α) : Answer → Host.Outcome α Fault Refusal
  | .next s => .next (f s)
  | .fault x => .fault x
  | .refused x => .refused x

/-- The state with the error report erased. -/
def hideError (s : State) : State := { s with status := { s.status with err := false, errCode := 0 } }

/-- The state with the error report and the read port erased: what is left is all that a running command has to do with. -/
def hideReport (s : State) : State := { hideError s with rdata := none }

/-! The transform as the composition of its stages (44_butterfly_engine.md R139, R154, R160, R162), on values, with no machine. -/

/-- The twiddle pair of stage `st` for the lower tap `a` (R161): table index `N / 2^(st+1) * (a mod 2^st)`. -/
def stageTwiddle (N st a : Nat) : ScaledComplex :=
  let i := N / 2 ^ (st + 1) * (a % 2 ^ st)
  ⟨twiddleEntry N i, twiddleEntry N (i + N / 4)⟩

/-- The rescaled product of an odd tap and a twiddle pair, written out (R156). -/
def rotated (N : Nat) (o w : ScaledComplex) : ScaledComplex :=
  ⟨(o.re * w.re - o.im * w.im) / (N : Int), (o.re * w.im + o.im * w.re) / (N : Int)⟩

/-- Stage `st` of the general stages applied to all taps at once (R160). -/
def stageOn (N st : Nat) (v : Nat → ScaledComplex) (j : Nat) : ScaledComplex :=
  let k2 := 2 ^ st
  if j % (2 * k2) < k2 then
    let t := rotated N (v (j + k2)) (stageTwiddle N st j)
    ⟨(v j).re + t.re, (v j).im + t.im⟩
  else
    let t := rotated N (v j) (stageTwiddle N st (j - k2))
    ⟨(v (j - k2)).re - t.re, (v (j - k2)).im - t.im⟩

/-- Stage 0 on the reordered input (R139, R154); the imaginary parts are neither permuted nor combined (R138, R153). -/
def stageZeroOn (N : Nat) (x : Nat → ScaledComplex) (j : Nat) : ScaledComplex :=
  let r := fun i => (x (bitReverse i N)).re
  ⟨if j % 2 = 0 then r j + r (j + 1) else r (j - 1) - r j, (x j).im⟩

/-- The taps after stage `st` (R162). -/
def tapsAfter (N : Nat) (x : Nat → ScaledComplex) : Nat → Nat → ScaledComplex
  | 0 => stageZeroOn N x
  | st + 1 => stageOn N (st + 1) (tapsAfter N x st)

/-- `log2 N` stages (R152). -/
def stages (N : Nat) : Nat := Nat.log2 N

/-- Engine operations of one transform in this model (R167): one reorder pass, `N/2` stage-0 combines, `(M-1)·N/4` dual
butterflies. -/
def xformOps (N : Nat) : Nat := 1 + N / 2 + (stages N - 1) * (N / 4)

/-- Words `0 .. n-1` of `RE` and `IM` have been written and hold these taps. -/
abbrev HoldsTaps (s : State) (n : Nat) (x : Nat → ScaledComplex) : Prop :=
  ∀ j < n, s.re.find j = some (x j).re ∧ s.im.find j = some (x j).im

/-- The block is idle and left alone, with a valid table of base size `N`. -/
abbrev ReadyFor (s : State) (N : Nat) : Prop :=
  s.status.busy = false ∧ Alone s ∧ s.status.tableValid = true ∧ s.tableA = N

end Sys2Proof.Machine
end

