-- ==== Sys2Proof/WellFormed.lean ====
section
/-! DEFINITION. The operand contract of every operation, as a decidable check on syntax, under a configuration. -/

namespace Sys2Proof

open Machine (fits isPow2 isSize depth)

/-- Both parts of a ScaledComplex operand are `ACC_W`-bit signed values (40_scaled_complex.md R90). -/
def ScaledComplex.fitsAcc (c : Params) (v : ScaledComplex) : Bool := decide (fits c.accW v.re) && decide (fits c.accW v.im)

/-- The operand contract. A size that is not legal is no illegal encoding (30_encoding.md R76), so `BUILD` and `XFORM` are
well-formed at every SIZE; the internal operations carry the ranges of their own rules. -/
def WellFormed (c : Params) : Instr → Bool
  | .build _ => true
  | .xform _ => true
  | .release => true
  | .clrstat => true
  | .cadd a b => a.fitsAcc c && b.fitsAcc c
  | .csub a b => a.fitsAcc c && b.fitsAcc c
  | .cmul a b => a.fitsAcc c && b.fitsAcc c
  | .crsh a sh => a.fitsAcc c && decide (0 ≤ sh) && decide (sh < (c.accW : Int))
  | .twlk z P => isSize c P && decide (4 ≤ P) && decide (z < P)
  | .brev j N => isSize c N && decide (j < N)
  | .brpass N => isSize c N
  | .pair0 i => decide (i % 2 = 0) && decide (i + 2 ≤ c.amax)
  | .bfly a b z p M =>
    isSize c (2 * p) && isPow2 p && decide (z < p) && decide (b = a + p) && decide (b < c.amax) &&
      decide (1 ≤ M) && decide (M ≤ c.log2Amax)
  | .dbfly i k2 z p M =>
    isSize c (2 * p) && isPow2 p && decide (z < p) && decide (z % 2 = 0) && decide (i % 2 = 0) && decide (k2 = p) &&
      decide (i + 1 + k2 < c.amax) && decide (1 ≤ M) && decide (M ≤ c.log2Amax)
  | .twgen A i => isSize c A && decide (i < depth A)

end Sys2Proof
end

