-- ==== Sys2Proof/Certificates/Slice0/Obligations.lean ====
section
/-! DEFINITION. The statements for the provers. Each docstring names the rule of spec/ that it formalises. -/

open Sys2Proof
open Sys2Proof.Machine

/-! ## Encoding and decoding -/

/-- 30_encoding.md R80. Decoding an encoded operation gives it back, for every operation and every operand, and a command word is the
encoding of what it decodes to. The spec states this of the four commands; it encodes no operand of an internal operation (R72,
R74), so that for the eleven of them the round trip is that of the model's own operand lines (log 10, the model's choice) beside
the select code. -/
def Obligations.DecodingInvertsEncoding : Prop :=
  (∀ i : Instr, decode (encode i) = some i) ∧
  (∀ (w : PortWord) (i : Instr), decodeCmd w = some i → encode i = .cmd w)

/-- 30_encoding.md R80: the pseudocode of decode on the numbers of the fields, the encoder, the round trip, the worked examples. -/
def Obligations.CommandWordsDecodeAsTheFieldsSay : Prop :=
  (∀ w : PortWord, decodeCmd w =
    if w.toNat / 16 % 4096 ≠ 0 then none
    else if w.toNat % 16 = 1 then some (.build (BitVec.ofNat 16 (w.toNat / 65536)))
    else if w.toNat % 16 = 2 then some (.xform (BitVec.ofNat 16 (w.toNat / 65536)))
    else if w.toNat % 16 = 3 ∧ w.toNat / 65536 = 0 then some .release
    else if w.toNat % 16 = 4 ∧ w.toNat / 65536 = 0 then some .clrstat
    else none) ∧
  (∀ A : BitVec 16, encode (.build A) = .cmd (BitVec.ofNat 32 (A.toNat * 65536 + 1)) ∧
    encode (.xform A) = .cmd (BitVec.ofNat 32 (A.toNat * 65536 + 2))) ∧
  encode .release = .cmd 3 ∧ encode .clrstat = .cmd 4 ∧
  (∀ i w, encode i = .cmd w → decodeCmd w = some i) ∧
  decodeCmd 0x00080001 = some (.build 8) ∧ decodeCmd 0x00080002 = some (.xform 8) ∧
  decodeCmd 0x04000002 = some (.xform 1024) ∧ decodeCmd 0x00000003 = some .release ∧ decodeCmd 0x00000004 = some .clrstat ∧
  decodeCmd 0x00000000 = none ∧ decodeCmd 0x00000005 = none ∧ decodeCmd 0x00080012 = none ∧ decodeCmd 0x00010003 = none

/-- 30_encoding.md R75: which words are illegal, and that an illegal word written to CMD while idle changes no state but ERR and
ERR_CODE; the all-zero word is illegal. -/
def Obligations.IllegalWordsAreRejected : Prop :=
  (∀ w : PortWord, decodeCmd w = none ↔
    (w.toNat % 16 = 0 ∨ 5 ≤ w.toNat % 16 ∨ w.toNat / 16 % 4096 ≠ 0 ∨
      ((w.toNat % 16 = 3 ∨ w.toNat % 16 = 4) ∧ w.toNat / 65536 ≠ 0))) ∧
  (∀ (w : PortWord) (s : State), decodeCmd w = none → s.status.busy = false →
    writeCmd w s = .next (if s.status.err then s else { s with status := { s.status with err := true, errCode := 1 } })) ∧
  decodeCmd 0 = none

/-- 30_encoding.md R73, R74: words and select codes written out from the tables decode to the operations they stand for. The operands of
the internal operations stand on the model's operand lines (log 10, the model's choice). -/
def Obligations.WrittenOutWordsDecode : Prop :=
  decode (.cmd 0b00000000000010000000000000000001) = some (.build 8) ∧
  decode (.cmd 0b00000100000000000000000000000010) = some (.xform 1024) ∧
  decode (.cmd 0b00000000000000000000000000000011) = some .release ∧
  decode (.cmd 0b00000000000000000000000000000100) = some .clrstat ∧
  (∀ l : OperandLines,
    decode (.uop ⟨0b0000, l⟩) = some (.cadd l.a l.b) ∧ decode (.uop ⟨0b0011, l⟩) = some (.crsh l.a l.sh) ∧
    decode (.uop ⟨0b0100, l⟩) = some (.twlk l.z l.p) ∧ decode (.uop ⟨0b0101, l⟩) = some (.brev l.x l.y) ∧
    decode (.uop ⟨0b1000, l⟩) = some (.bfly l.x l.y l.z l.p l.m) ∧ decode (.uop ⟨0b1010, l⟩) = some (.twgen l.x l.y) ∧
    decode (.uop ⟨0b1011, l⟩) = none ∧ decode (.uop ⟨0b1111, l⟩) = none)

/-! ## A step runs the decoded instruction -/

/-- 45_commands.md R180, 30_encoding.md R70: the step whose port cycle writes a legal word to CMD is exec of the decoded command at the
edge, followed, when the Engine was busy and the schedule lets it, by one Engine operation. That a step is one edge, that a
schedule bit decides, and that one Engine operation follows the access at the same edge is the model's choice (log 8, 9). -/
def Obligations.StepRunsTheWrittenCommand : Prop :=
  ∀ (s : State) (c : PortCycle) (rest : List PortCycle) (i : Instr),
    NextCycle s c rest → Writes s c .cmd → decodeCmd c.wdata = some i →
    step s = andThen (exec i (atEdge s rest))
      (fun t => if s.status.busy = true ∧ c.engine = true then engineOp t else .next t) ∧
    ((s.status.busy = false ∨ c.engine = false) → step s = exec i (atEdge s rest))

/-- 30_encoding.md R70, R74, R76 (the select lines are the model's way to run an internal operation by itself, log 10): the step is
exec of the decoded operation; an unused code is refused. -/
def Obligations.StepRunsTheSelectedOperation : Prop :=
  ∀ (s : State) (u : UopWord), s.uop = some u →
    (∀ i, decodeUop u = some i → step s = exec i { atEdge s s.host with uop := none }) ∧
    (decodeUop u = none → step s = .refused .unusedCode)

/-- The next step after `withFetchWord` runs the instruction that the decoder reads from the table word (log 21). -/
def Obligations.FetchWordIsRunNext : Prop :=
  ∀ (s : State) (nbits w : Nat) (i : Instr), decodeTableWord nbits w = some i →
    step (s.withFetchWord nbits w) = exec i { atEdge s s.host with uop := none }

/-! ## Reset -/

/-- 10_state.md R36: the values the spec gives for reset; every memory word is unspecified (no word is listed). -/
def Obligations.ResetLeavesTheStatedValues : Prop :=
  State.reset.status.busy = false ∧ State.reset.status.done = false ∧ State.reset.status.err = false ∧
  State.reset.status.errCode = 0 ∧ State.reset.status.tableValid = false ∧ State.reset.status.word = 0 ∧
  State.reset.tableA = 0 ∧ State.reset.seq.phase = .idle ∧ State.reset.busyPin = false ∧ State.reset.donePin = false ∧
  (∀ i, State.reset.re.find i = none ∧ State.reset.im.find i = none ∧ State.reset.tw.find i = none)

/-- 70_reset_and_hazards.md R240, R242: an edge with `rst = 1` gives the reset values whatever the block was doing, no memory word is
known any more, a read returns 0; parameters and the Host's coming cycles stay. -/
def Obligations.ResetEdgeAbandonsEverything : Prop :=
  ∀ (s : State) (c : PortCycle) (rest : List PortCycle), NextCycle s c rest → c.rst = true →
    ∃ t, step s = .next t ∧ t.status.word = 0 ∧ t.tableA = 0 ∧ t.seq.phase = .idle ∧ t.busyPin = false ∧ t.donePin = false ∧
      (∀ i, t.re.find i = none ∧ t.im.find i = none ∧ t.tw.find i = none) ∧
      t.rdata = (if c.sel = true ∧ c.we = false then some 0 else none) ∧ t.cfg = s.cfg ∧ t.host = rest ∧ t.uop = none

/-! ## The commands -/

/-- 60_exceptions.md R214: what a rejection does, and that it does nothing else; the codes of R211. -/
def Obligations.RejectionRecordsTheFirstCause : Prop :=
  (∀ (c : Cause) (s : State),
    reject c s = if s.status.err then s else { s with status := { s.status with err := true, errCode := c.code } }) ∧
  Cause.code .illegalCmd = 1 ∧ Cause.code .badSize = 2 ∧ Cause.code .noTable = 3 ∧ Cause.code .sizeMismatch = 4 ∧
  Cause.code .busyViolation = 5

/-- 45_commands.md R180, R181 (acceptance), 60_exceptions.md R212, R213: BUILD always answers; which case, and the whole next state. That
`SEQ.m` and `SEQ.i` are set at acceptance is the model's reading (log 18). -/
def Obligations.BuildIsIssued : Prop :=
  ∀ (A : BitVec 16) (s : State),
    (s.status.busy = true → exec (.build A) s = .next (reject .busyViolation s)) ∧
    (s.status.busy = false → ¬(∃ m, 1 ≤ m ∧ m ≤ s.cfg.log2Amax ∧ A.toNat = 2 ^ m) →
      exec (.build A) s = .next (reject .badSize s)) ∧
    (∀ m, s.status.busy = false → 1 ≤ m → m ≤ s.cfg.log2Amax → A.toNat = 2 ^ m →
      exec (.build A) s = .next { s with
        status := { s.status with done := false, tableValid := false, busy := true }
        tableA := 0
        tw := []
        seq := { s.seq with phase := .building, n := A.toNat, m := m, i := 0 } })

/-- 45_commands.md R180, R182 (acceptance), 60_exceptions.md R212, R213: XFORM always answers; the checks in their order, and the whole
next state. -/
def Obligations.XformIsIssued : Prop :=
  ∀ (N : BitVec 16) (s : State),
    (s.status.busy = true → exec (.xform N) s = .next (reject .busyViolation s)) ∧
    (s.status.busy = false → ¬(∃ m, 1 ≤ m ∧ m ≤ s.cfg.log2Amax ∧ N.toNat = 2 ^ m) →
      exec (.xform N) s = .next (reject .badSize s)) ∧
    (∀ m, s.status.busy = false → 1 ≤ m → m ≤ s.cfg.log2Amax → N.toNat = 2 ^ m →
      (s.status.tableValid = false → exec (.xform N) s = .next (reject .noTable s)) ∧
      (s.status.tableValid = true → s.tableA ≠ N.toNat → exec (.xform N) s = .next (reject .sizeMismatch s)) ∧
      (s.status.tableValid = true → s.tableA = N.toNat →
        exec (.xform N) s = .next { s with
          status := { s.status with done := false, busy := true }
          seq := { s.seq with phase := .permute, n := N.toNat, m := m } }))

/-- 45_commands.md R183, R184, 60_exceptions.md R213: RELEASE and CLRSTAT complete in their own access; every case and the whole next
state. -/
def Obligations.ReleaseAndClrstatAreIssued : Prop :=
  ∀ s : State,
    (s.status.busy = true → exec .release s = .next (reject .busyViolation s) ∧
      exec .clrstat s = .next (reject .busyViolation s)) ∧
    (s.status.busy = false →
      (s.status.tableValid = false → exec .release s = .next (reject .noTable s)) ∧
      (s.status.tableValid = true →
        exec .release s = .next { s with
          status := { s.status with done := false, tableValid := false }, tableA := 0, tw := [] }) ∧
      exec .clrstat s = .next { s with status := { s.status with done := false, err := false, errCode := 0 } })

/-- 60_exceptions.md R215: once set, ERR and ERR_CODE stay through any step but one that resets the block or in which CLRSTAT is
accepted. -/
def Obligations.ErrorReportIsSticky : Prop :=
  ∀ s t : State, s.status.err = true → step s = .next t →
    (∀ c rest, NextCycle s c rest → c.rst = false ∧ ¬(Writes s c .cmd ∧ c.wdata = 4 ∧ s.status.busy = false)) →
    t.status.err = true ∧ t.status.errCode = s.status.errCode

/-- 60_exceptions.md R217: a standing error blocks nothing: what an operation does, the error report apart, does not depend on it. -/
def Obligations.StandingErrorBlocksNothing : Prop :=
  ∀ (i : Instr) (s : State), Answer.map hideError (exec i s) = Answer.map hideError (exec i (hideError s))

/-! ## scaled_complex_multiplier and fixed_point_scaler -/

/-- 40_scaled_complex.md R93, R94, R95, R100: CADD, CSUB and CMUL complete in every state; the result, and nothing else changes. -/
def Obligations.ComplexOperationsComplete : Prop :=
  ∀ (a b : ScaledComplex) (s : State),
    exec (.cadd a b) s = .next { s with result := .complex ⟨a.re + b.re, a.im + b.im⟩ } ∧
    exec (.csub a b) s = .next { s with result := .complex ⟨a.re - b.re, a.im - b.im⟩ } ∧
    exec (.cmul a b) s = .next { s with result := .complex ⟨a.re * b.re - a.im * b.im, a.re * b.im + a.im * b.re⟩ }

/-- 40_scaled_complex.md R96, R101: CRSH completes for every shift that is not negative, each part being the floor of the rational
quotient by `2^sh`; a negative shift is refused. -/
def Obligations.ShiftRoundsTowardMinusInfinity : Prop :=
  ∀ (a : ScaledComplex) (sh : Nat) (s : State),
    exec (.crsh a (sh : Int)) s =
      .next { s with result := .complex ⟨⌊(a.re : ℚ) / (2 : ℚ) ^ sh⌋, ⌊(a.im : ℚ) / (2 : ℚ) ^ sh⌋⟩ } ∧
    exec (.crsh a (-(sh : Int) - 1)) s = .refused .negativeShift

/-- 40_scaled_complex.md R96: on the two's complement pattern of any width `W` that holds the value, the shift drops the low bits and
fills with copies of the sign bit. -/
def Obligations.ShiftFillsWithTheSign : Prop :=
  ∀ (W sh : Nat) (v : Int), 0 < W → fits W v →
    fits W (floorShift v sh) ∧ BitVec.ofInt W (floorShift v sh) = (BitVec.ofInt W v).sshiftRight sh

/-- 40_scaled_complex.md R99, 00_scope.md R9: with taps that fit SAMPLE_W bits and a twiddle pair from a table of base size
`A = 2^M`, `4 ≤ A ≤ AMAX`, the product, its rescaled form, and the sum and difference with a tap all fit ACC_W bits. -/
def Obligations.DatapathWidthSuffices : Prop :=
  ∀ (c : Params) (M i : Nat) (e o : ScaledComplex), c.Legal → 2 ≤ M → M ≤ c.log2Amax →
    fits c.sampleW e.re → fits c.sampleW e.im → fits c.sampleW o.re → fits c.sampleW o.im →
    let w : ScaledComplex := ⟨twiddleEntry (2 ^ M) i, twiddleEntry (2 ^ M) (i + 2 ^ M / 4)⟩;
    FitsAcc c w ∧ FitsAcc c (cmul o w) ∧ FitsAcc c (crsh (cmul o w) M) ∧
      FitsAcc c (cadd e (crsh (cmul o w) M)) ∧ FitsAcc c (csub e (crsh (cmul o w) M))

/-! ## twiddle_rom -/

/-- 41_twiddle_rom.md R116: where the lookup is defined, with a table that holds its entries, TWLK completes with the pair
`(T(A, index), T(A, index + A/4))`, `index = (A/P) z`, and changes nothing else; the entries at the corner cases of the rule. (At
`P = 2`, which R116 admits and 93_implementation_defined.md U4 excludes, the lookup itself is refused: log 13.) -/
def Obligations.LookupReturnsTheTwiddlePair : Prop :=
  (∀ (s : State) (m z P : Nat), s.status.tableValid = true → s.tableA = 2 ^ m → 2 ≤ m →
    TableHolds s.tw s.tableA (depth s.tableA) → isPow2 P = true → 4 ≤ P → P ≤ s.tableA → z < P →
    exec (.twlk z P) s = .next { s with result :=
      (.complex ⟨twiddleEntry s.tableA (s.tableA / P * z), twiddleEntry s.tableA (s.tableA / P * z + s.tableA / 4)⟩) }) ∧
  (∀ (m n : Nat), 2 ≤ m → m ≤ 15 → 1 ≤ n → n ≤ m →
    let A : Nat := 2 ^ m;
    let P : Nat := 2 ^ n;
    let pair := fun z => (twiddleEntry A (A / P * z), twiddleEntry A (A / P * z + A / 4));
    pair 0 = ((A : Int), 0) ∧ pair (P / 2) = (-(A : Int), 0) ∧ (2 ≤ n → pair (P / 4) = (0, -(A : Int))))

/-- 41_twiddle_rom.md R116 and 93_implementation_defined.md U4: a lookup outside the preconditions is refused, in TWLK and in a
butterfly that makes it. (That `P = 2` is outside follows U4: log 13.) -/
def Obligations.LookupOutsideContractIsRefused : Prop :=
  ∀ (s : State) (z P : Nat),
    ¬(s.status.tableValid = true ∧ 4 ≤ s.tableA ∧ isPow2 P = true ∧ 4 ≤ P ∧ P ≤ s.tableA ∧ z < P) →
    exec (.twlk z P) s = .refused .lookupOutsideContract ∧
    (∀ a b p M, P = 2 * p → a < s.cfg.amax → b < s.cfg.amax →
      exec (.bfly a b z p M) s = .refused .lookupOutsideContract)

/-- 41_twiddle_rom.md R111: every entry lies in `-A .. A`, `T(A, 0) = A`, `T(A, A/2) = -A`, and an entry fits TW_W bits. -/
def Obligations.TableEntriesStayInRange : Prop :=
  ∀ (c : Params) (m i : Nat), c.Legal → 1 ≤ m → m ≤ c.log2Amax →
    let A : Nat := 2 ^ m;
    -(A : Int) ≤ twiddleEntry A i ∧ twiddleEntry A i ≤ (A : Int) ∧ twiddleEntry A 0 = (A : Int) ∧
      twiddleEntry A (A / 2) = -(A : Int) ∧ fits c.twW (twiddleEntry A i)

/-- 41_twiddle_rom.md R114: the symmetries of the entry function, and the expansion of the first quarter to the whole table. -/
def Obligations.TableEntriesAreSymmetric : Prop :=
  ∀ (m : Nat), 2 ≤ m → m ≤ 15 →
    let A : Nat := 2 ^ m;
    let T := twiddleEntry A;
    (∀ i, T (i + A) = T i) ∧ (∀ i ≤ A, T (A - i) = T i) ∧ (∀ i, T (i + A / 2) = -T i) ∧
    (∀ i ≤ A / 2, T (A / 2 - i) = -T i) ∧ T (A / 4) = 0 ∧ T (3 * A / 4) = 0 ∧
    (∀ i, A / 4 < i → i ≤ A / 2 → T i = -T (A / 2 - i)) ∧ (∀ i, A / 2 < i → i < A → T i = T (A - i)) ∧
    (∀ i, A ≤ i → i < A + A / 4 → T i = T (i - A))

/-- 41_twiddle_rom.md R111, R113 with 42_twiddle_tables.md R130: for every base size from 2 to 4096 the entry `T(A, i)` of the model is
the integer nearest to the real number `A · cos(-2π·i/A)`, and no entry is a tie. -/
def Obligations.TableEntriesAreRoundedCosines : Prop :=
  ∀ (m i : Nat), 1 ≤ m → m ≤ 12 →
    |(twiddleEntry (2 ^ m) i : ℝ) - (2 ^ m : ℝ) * Real.cos (-(2 * Real.pi) * (i : ℝ) / (2 ^ m : ℝ))| < 1 / 2

/-- 41_twiddle_rom.md R115: TWGEN completes for every operand `A` and every index that has a word; for a legal base size the word
holds `T(A, i)`; every other word of `TW` and everything else is as before. (For any other `A` the entry is a free value of TW_W
bits: log 26, the model's choice.) -/
def Obligations.TableEntryIsGenerated : Prop :=
  ∀ (s : State) (A i : Nat), i < depth s.cfg.amax →
    ∃ t v, exec (.twgen A i) s = .next t ∧ t.tw.find i = some v ∧ (isSize s.cfg A = true → v = twiddleEntry A i) ∧
      (s.cfg.Legal → fits s.cfg.twW v) ∧ (∀ j, j ≠ i → t.tw.find j = s.tw.find j) ∧ t = { s with tw := t.tw }

/-! ## bit_reversal_unit -/

/-- 43_bit_reversal.md R135: BREV completes in every state; inside its contract the result is the sum of the bits of `j` at the
mirrored places. (Outside the contract the index is free: log 12, the model's choice.) -/
def Obligations.BitReversalMirrorsTheBits : Prop :=
  ∀ (s : State) (j M : Nat),
    (1 ≤ M → M ≤ s.cfg.log2Amax → j < 2 ^ M →
      exec (.brev j (2 ^ M)) s =
        .next { s with result := .index (∑ b ∈ Finset.range M, j / 2 ^ b % 2 * 2 ^ (M - 1 - b)) } ∧
      (∑ b ∈ Finset.range M, j / 2 ^ b % 2 * 2 ^ (M - 1 - b)) < 2 ^ M) ∧
    (∀ N, ∃ r, exec (.brev j N) s = .next { s with result := .index r })

/-- 43_bit_reversal.md R136: bit reversal is an involution and a bijection of `0 .. N-1`, and the pairs `{i, BREV(i)}` are disjoint. -/
def Obligations.BitReversalIsAnInvolution : Prop :=
  ∀ (M : Nat), 1 ≤ M →
    let N : Nat := 2 ^ M;
    (∀ j < N, bitReverse j N < N ∧ bitReverse (bitReverse j N) N = j) ∧
    Set.BijOn (fun j => bitReverse j N) (Set.Iio N) (Set.Iio N) ∧
    (∀ i j, i < N → j < N → (i = j ∨ i = bitReverse j N ∨ bitReverse i N = j ∨ bitReverse i N = bitReverse j N) →
      (j = i ∨ j = bitReverse i N))

/-- 43_bit_reversal.md R141: the values for the sizes 2 to 16. -/
def Obligations.BitReversalValues : Prop :=
  (List.range 2).map (bitReverse · 2) = [0, 1] ∧ (List.range 4).map (bitReverse · 4) = [0, 2, 1, 3] ∧
  (List.range 8).map (bitReverse · 8) = [0, 4, 2, 6, 1, 5, 3, 7] ∧
  (List.range 16).map (bitReverse · 16) = [0, 8, 4, 12, 2, 10, 6, 14, 1, 9, 5, 13, 3, 11, 7, 15]

/-- 43_bit_reversal.md R137, R139: BRPASS completes for every operand; for a legal size `RE[i]` is afterwards the old `RE[BREV(i, N)]`
for `i < N` and the words of `RE` at and above `N` are as before; everything but `RE`, `IM` included, is as before, and no word
is made outside `RE`. (For any other `N` the indices of the swaps are free ones of `RE`: log 12, the model's choice.) -/
def Obligations.ReorderPassPermutesRe : Prop :=
  ∀ (s : State) (N : Nat),
    ∃ t, exec (.brpass N) s = .next t ∧
      (isSize s.cfg N = true → (∀ i < N, load t .re i = load s .re (bitReverse i N)) ∧
        (∀ j, N ≤ j → t.re.find j = s.re.find j)) ∧
      (∀ j, s.cfg.amax ≤ j → t.re.find j = s.re.find j) ∧ t = { s with re := t.re }

/-! ## The butterflies -/

/-- 44_butterfly_engine.md R153, R157: PAIR0 on words that exist: when both results fit it completes, the two words hold the sum and
the difference, every other word of `RE` and everything else is as before; else it is the fault of the first result that does not
fit (60_exceptions.md R219). (That it runs at an odd index is the model's choice: log 25.) -/
def Obligations.PairIsCombined : Prop :=
  ∀ (s : State) (i : Nat), i + 1 < s.cfg.amax →
    let x0 := load s .re i;
    let x1 := load s .re (i + 1);
    (fits s.cfg.sampleW (x0 + x1) → fits s.cfg.sampleW (x0 - x1) →
      ∃ t, exec (.pair0 i) s = .next t ∧ t.re.find i = some (x0 + x1) ∧ t.re.find (i + 1) = some (x0 - x1) ∧
        (∀ j, j ≠ i → j ≠ i + 1 → t.re.find j = s.re.find j) ∧ t = { s with re := t.re }) ∧
    (¬ fits s.cfg.sampleW (x0 + x1) → exec (.pair0 i) s = .fault (.overflow .re i (x0 + x1))) ∧
    (fits s.cfg.sampleW (x0 + x1) → ¬ fits s.cfg.sampleW (x0 - x1) →
      exec (.pair0 i) s = .fault (.overflow .re (i + 1) (x0 - x1)))

/-- 44_butterfly_engine.md R156 "Written out", R157: one butterfly on taps `a` and `b = a + k2` inside the memory, with a valid
lookup: when the four results fit it completes with them, every other word and everything but the operand registers is as before.
(The rule's operands have `z < p` and `k2 = p`; that it runs at a larger `z` or another distance is the model's choice: log 25.) -/
def Obligations.ButterflyCombinesItsTaps : Prop :=
  ∀ (s : State) (a k2 z p M : Nat), 1 ≤ k2 → a + k2 < s.cfg.amax →
    s.status.tableValid = true → 4 ≤ s.tableA → isPow2 (2 * p) = true → 2 ≤ p → 2 * p ≤ s.tableA → z < 2 * p →
    let b := a + k2;
    let c := load s .tw (s.tableA / (2 * p) * z);
    let q := load s .tw (s.tableA / (2 * p) * z + s.tableA / 4);
    let tre := (load s .re b * c - load s .im b * q) / ((2 ^ M : Nat) : Int);
    let tim := (load s .re b * q + load s .im b * c) / ((2 ^ M : Nat) : Int);
    fits s.cfg.sampleW (load s .re a + tre) → fits s.cfg.sampleW (load s .im a + tim) →
    fits s.cfg.sampleW (load s .re a - tre) → fits s.cfg.sampleW (load s .im a - tim) →
    ∃ t, exec (.bfly a b z p M) s = .next t ∧
      t.re.find a = some (load s .re a + tre) ∧ t.im.find a = some (load s .im a + tim) ∧
      t.re.find b = some (load s .re a - tre) ∧ t.im.find b = some (load s .im a - tim) ∧
      (∀ j, j ≠ a → j ≠ b → t.re.find j = s.re.find j ∧ t.im.find j = s.im.find j) ∧
      t = { s with re := t.re, im := t.im, opnd := t.opnd }

/-- 44_butterfly_engine.md R157, 60_exceptions.md R219: a butterfly whose results do not all fit is a fault, of the first store, in
the order RE[a], IM[a], RE[b], IM[b], whose value does not fit. (For a `z` at or above `p`, or a distance other than `p`, this is
the model's choice: log 25.) -/
def Obligations.ButterflyOverflowIsAFault : Prop :=
  ∀ (s : State) (a k2 z p M : Nat), 1 ≤ k2 → a + k2 < s.cfg.amax → LookupDefined s z (2 * p) →
    ∀ w, lookup s z (2 * p) = some w →
    let b := a + k2;
    let t := crsh (cmul (loadTap s b) w) M;
    let u := cadd (loadTap s a) t;
    let v := csub (loadTap s a) t;
    (¬ fits s.cfg.sampleW u.re → exec (.bfly a b z p M) s = .fault (.overflow .re a u.re)) ∧
    (fits s.cfg.sampleW u.re → ¬ fits s.cfg.sampleW u.im → exec (.bfly a b z p M) s = .fault (.overflow .im a u.im)) ∧
    (fits s.cfg.sampleW u.re → fits s.cfg.sampleW u.im → ¬ fits s.cfg.sampleW v.re →
      exec (.bfly a b z p M) s = .fault (.overflow .re b v.re)) ∧
    (fits s.cfg.sampleW u.re → fits s.cfg.sampleW u.im → fits s.cfg.sampleW v.re → ¬ fits s.cfg.sampleW v.im →
      exec (.bfly a b z p M) s = .fault (.overflow .im b v.im))

/-- 44_butterfly_engine.md R158: a dual butterfly inside the memory with a valid table completes when the eight results, computed
from the state before it, fit: each of the two pairs of taps holds its butterfly, every other word is as before, the new `z` is
returned, and nothing else but the operand registers changes. (That it runs at an odd `i`, an odd `z` or a `k2` other than `p` is
the model's choice: log 25.) -/
def Obligations.DualButterflyCombinesTwoPairs : Prop :=
  ∀ (s : State) (i k2 z p M : Nat), 2 ≤ k2 → i + 1 + k2 < s.cfg.amax →
    s.status.tableValid = true → 4 ≤ s.tableA → isPow2 (2 * p) = true → 2 ≤ p → 2 * p ≤ s.tableA → z < p →
    let z1 := if z + 1 = p then 0 else z + 1;
    let z2 := if z1 + 1 = p then 0 else z1 + 1;
    ∀ w0 w1, lookup s z (2 * p) = some w0 → lookup s z1 (2 * p) = some w1 →
    let t0 := crsh (cmul (loadTap s (i + k2)) w0) M;
    let t1 := crsh (cmul (loadTap s (i + 1 + k2)) w1) M;
    let u0 := cadd (loadTap s i) t0;
    let v0 := csub (loadTap s i) t0;
    let u1 := cadd (loadTap s (i + 1)) t1;
    let v1 := csub (loadTap s (i + 1)) t1;
    (∀ x ∈ [u0, v0, u1, v1], fits s.cfg.sampleW x.re ∧ fits s.cfg.sampleW x.im) →
    ∃ t, exec (.dbfly i k2 z p M) s = .next t ∧
      loadTap t i = u0 ∧ loadTap t (i + k2) = v0 ∧ loadTap t (i + 1) = u1 ∧ loadTap t (i + 1 + k2) = v1 ∧
      (∀ j, j ≠ i → j ≠ i + 1 → j ≠ i + k2 → j ≠ i + 1 + k2 → t.re.find j = s.re.find j ∧ t.im.find j = s.im.find j) ∧
      t = { s with re := t.re, im := t.im, opnd := t.opnd, result := .index z2 }

/-- 44_butterfly_engine.md R158: the two butterflies of a dual butterfly "do not interact": made in the other order they leave the
same words. (At an odd `i`, an odd `z` or a `k2` other than `p` the operation runs by the model's choice: log 25.) -/
def Obligations.DualButterflyLanesAreIndependent : Prop :=
  ∀ (s t : State) (i k2 z p M : Nat), 2 ≤ k2 → exec (.dbfly i k2 z p M) s = .next t →
    let z1 := if z + 1 = p then 0 else z + 1;
    ∃ s1 t1, exec (.bfly (i + 1) (i + 1 + k2) z1 p M) s = .next s1 ∧ exec (.bfly i (i + k2) z p M) s1 = .next t1 ∧
      ∀ j, load t1 .re j = load t .re j ∧ load t1 .im j = load t .im j

/-- 20_memory.md R50, 93_implementation_defined.md U4 (log 14): an operand with no word behind it, or a lookup outside its contract, is
refused by name. -/
def Obligations.OperandsOutsideTheBlockAreRefused : Prop :=
  ∀ s : State,
    (∀ i, s.cfg.amax ≤ i + 1 → exec (.pair0 i) s = .refused .noSuchWord) ∧
    (∀ a b z p M, s.cfg.amax ≤ a ∨ s.cfg.amax ≤ b → exec (.bfly a b z p M) s = .refused .noSuchWord) ∧
    (∀ i k2 z p M, s.cfg.amax ≤ i + k2 → exec (.dbfly i k2 z p M) s = .refused .noSuchWord) ∧
    (∀ i k2 z p M, i + k2 < s.cfg.amax → ¬ LookupDefined s z (2 * p) →
      exec (.dbfly i k2 z p M) s = .refused .lookupOutsideContract) ∧
    (∀ A i, depth s.cfg.amax ≤ i → exec (.twgen A i) s = .refused .noSuchWord)

/-! ## The invariant and the rules about every step -/

/-- The reset state meets the invariant. -/
def Obligations.ResetMeetsTheInvariant : Prop := Inv State.reset

/-- Every step that answers a next state keeps the invariant: canonical memories inside their spaces and widths, BUSY exactly when the
phase is not IDLE (10_state.md R26), the table descriptor (R25), the table contents, the counters of the sequencer in their
ranges and registers (R27), operand registers within ACC_W. -/
def Obligations.StepKeepsTheInvariant : Prop :=
  ∀ s t : State, Inv s → step s = .next t → Inv t

/-- 41_twiddle_rom.md R117, 44_butterfly_engine.md R160, 45_commands.md R182 ("none after acceptance"): from a state that meets the
invariant no step is refused, and the only fault is an overflow at a tap of the transform in progress. -/
def Obligations.EngineStaysInsideItsContracts : Prop :=
  ∀ s : State, Inv s →
    (∃ t, step s = .next t) ∨
    (∃ sp j v, step s = .fault (.overflow sp j v) ∧ sp ≠ .tw ∧ j < s.seq.n ∧ ¬ fits s.cfg.sampleW v ∧ s.status.busy = true)

/-- 10_state.md R35, 40_scaled_complex.md R102: no step changes the configuration (log 2: the record stands in State). -/
def Obligations.ConfigurationNeverChanges : Prop :=
  ∀ s t : State, step s = .next t → t.cfg = s.cfg

/-- 41_twiddle_rom.md R119: between the completion of a BUILD and the next accepted BUILD or RELEASE (or reset), that is, over every
step from a valid table to a valid table, no word of `TW` and not `TABLE_A` changes. -/
def Obligations.TableIsReadOnlyWhileValid : Prop :=
  ∀ s t : State, Inv s → step s = .next t → s.status.tableValid = true → t.status.tableValid = true →
    t.tw = s.tw ∧ t.tableA = s.tableA

/-- 45_commands.md R189: a step from a busy state, reset apart, shows either BUSY = 1, DONE = 0 or BUSY = 0, DONE = 1. -/
def Obligations.BusyEndsInDone : Prop :=
  ∀ s t : State, Inv s → s.status.busy = true → step s = .next t → (∀ c rest, NextCycle s c rest → c.rst = false) →
    (t.status.busy = true ∧ t.status.done = false) ∨ (t.status.busy = false ∧ t.status.done = true)

/-- 60_exceptions.md R218, 10_state.md R27: whatever accesses the Host makes while BUSY = 1, reset apart, the running command goes on
the same: two steps that differ only in the Host's access give the same answer but for ERR, ERR_CODE and rdata. -/
def Obligations.HostCannotDisturbARunningCommand : Prop :=
  ∀ (s : State) (c d : PortCycle) (rest : List PortCycle), s.uop = none → s.status.busy = true →
    c.rst = false → d.rst = false → c.engine = d.engine →
    Answer.map hideReport (step { s with host := c :: rest }) = Answer.map hideReport (step { s with host := d :: rest })

/-- 60_exceptions.md R213, R218: a write to CMD, RE or IM while BUSY was 1 before the edge is rejected with BUSY_VIOLATION, also when
the command completes at that very edge. -/
def Obligations.WriteAtTheCompletingEdgeIsRejected : Prop :=
  ∀ (s t : State) (c : PortCycle) (rest : List PortCycle) (i : Nat), NextCycle s c rest → s.status.busy = true →
    (Writes s c .cmd ∨ Writes s c (.re i) ∨ Writes s c (.im i)) → step s = .next t →
    t.status.err = true ∧ (s.status.err = false → t.status.errCode = 5)

/-! ## The Host port -/

/-- 20_memory.md R53, R56, 45_commands.md R186, R187: while idle a write to word `i` of RE or IM completes, the word reads back as the
low SAMPLE_W bits of the data, sign-extended to 32, and nothing else changes. -/
def Obligations.SampleReadsBackAsWritten : Prop :=
  ∀ (s : State) (i : Nat) (d : PortWord), s.cfg.Legal → s.status.busy = false → i < s.cfg.amax →
    (∃ t, hostWrite (2 * s.cfg.amax + i) d s = .next t ∧
      hostRead (2 * s.cfg.amax + i) t = (d.setWidth s.cfg.sampleW).signExtend 32 ∧
      (∀ j, j ≠ i → t.re.find j = s.re.find j) ∧ t = { s with re := t.re }) ∧
    (∃ t, hostWrite (4 * s.cfg.amax + i) d s = .next t ∧
      hostRead (4 * s.cfg.amax + i) t = (d.setWidth s.cfg.sampleW).signExtend 32 ∧
      (∀ j, j ≠ i → t.im.find j = s.im.find j) ∧ t = { s with im := t.im })

/-- 20_memory.md R55: while idle, offsets with no word behind them read 0 and ignore writes; writes to STATUS, TABLE_A and TW are
ignored. -/
def Obligations.HolesReadZeroAndIgnoreWrites : Prop :=
  ∀ (s : State) (off : Nat) (d : PortWord), s.cfg.Legal → s.status.busy = false → off < 2 * s.cfg.amax →
    (3 ≤ off → hostRead off s = 0 ∧ hostWrite off d s = .next s) ∧
    (s.cfg.amax ≤ off →
      hostRead (2 * s.cfg.amax + off) s = 0 ∧ hostWrite (2 * s.cfg.amax + off) d s = .next s ∧
      hostRead (4 * s.cfg.amax + off) s = 0 ∧ hostWrite (4 * s.cfg.amax + off) d s = .next s) ∧
    (s.status.tableValid = false ∨ depth s.tableA ≤ off → hostRead (6 * s.cfg.amax + off) s = 0) ∧
    hostWrite (6 * s.cfg.amax + off) d s = .next s ∧ hostWrite 1 d s = .next s ∧ hostWrite 2 d s = .next s

/-- 45_commands.md R188: while idle with a valid table that holds its entries, a read of `TW` at an offset below DEPTH returns the
sign-extended entry. -/
def Obligations.TableReadsReturnTheEntries : Prop :=
  ∀ (s : State) (i : Nat), s.status.busy = false → s.status.tableValid = true → isSize s.cfg s.tableA = true →
    TableHolds s.tw s.tableA (depth s.tableA) → i < depth s.tableA →
    hostRead (6 * s.cfg.amax + i) s = BitVec.ofInt 32 (twiddleEntry s.tableA i)

/-- 20_memory.md R57: a read cycle changes nothing but the read port. -/
def Obligations.ReadsHaveNoSideEffect : Prop :=
  ∀ (s : State) (c : PortCycle) (rest : List PortCycle), NextCycle s c rest → c.rst = false → c.sel = true → c.we = false →
    (s.status.busy = false ∨ c.engine = false) →
    step s = .next { atEdge s rest with rdata := some (hostRead c.addr (atEdge s rest)) }

/-- 10_state.md R31, R32, R30: what reads of STATUS, TABLE_A and CMD return, in every state, busy or not. -/
def Obligations.RegistersReadAsLaidOut : Prop :=
  ∀ s : State,
    (hostRead 1 s).toNat = s.status.busy.toNat + 2 * s.status.done.toNat + 4 * s.status.err.toNat +
      8 * s.status.tableValid.toNat + 16 * s.status.errCode.toNat ∧
    (1 ≤ s.cfg.log2Amax → hostRead 2 s = BitVec.ofNat 32 s.tableA) ∧ hostRead 0 s = 0

/-- 60_exceptions.md R218: the Host's accesses while BUSY = 1: writes to CMD and to words of RE and IM are rejected, all other writes
are ignored, and no read changes anything but the read port. (Offsets of RE and IM with no word behind them are among the
ignored ones, as 20_memory.md R55 says: log 15, the model's choice.) -/
def Obligations.AccessesWhileBusy : Prop :=
  ∀ (s : State) (addr : Nat) (d : PortWord), s.status.busy = true →
    (target s.cfg addr = .cmd ∨ (∃ i, target s.cfg addr = .re i) ∨ (∃ i, target s.cfg addr = .im i) →
      hostWrite addr d s = .next (reject .busyViolation s)) ∧
    (target s.cfg addr = .status ∨ target s.cfg addr = .tableA ∨ (∃ i, target s.cfg addr = .tw i) ∨
      target s.cfg addr = .hole → hostWrite addr d s = .next s) ∧
    (∀ e, hostAccess (readCycle addr e) s = .next { s with rdata := some (hostRead addr s) })

/-! ## Whole commands -/

/-- 45_commands.md R181, 41_twiddle_rom.md R115, 70_reset_and_hazards.md R252: an accepted BUILD, left alone, is busy for DEPTH(A)
Engine operations (one a step: log 8, 9) and then complete: the table holds `T(A, i)` at every index below DEPTH(A), is valid with base size `A`, and
`RE`, `IM` and the error report are as before. -/
def Obligations.BuildRunsToCompletion : Prop :=
  ∀ (A : BitVec 16) (s : State), s.cfg.Legal → isSize s.cfg A.toNat = true → s.status.busy = false → Alone s →
    ∃ s1, exec (.build A) s = .next s1 ∧
      (∀ k < depth A.toNat, ∃ u, run k s1 = .next u ∧ u.status.busy = true ∧ u.status.done = false ∧ u.status.tableValid = false) ∧
      ∃ t, run (depth A.toNat) s1 = .next t ∧ t.status = { s.status with busy := false, done := true, tableValid := true } ∧
        t.seq.phase = .idle ∧ t.tableA = A.toNat ∧ TableHolds t.tw A.toNat (depth A.toNat) ∧ t.re = s.re ∧ t.im = s.im

/-- 70_reset_and_hazards.md R252, 45_commands.md R182, 20_memory.md R65: an accepted XFORM, left alone, takes exactly
`1 + N/2 + (M-1)·N/4` Engine operations (44_butterfly_engine.md R167; one a step: log 8, 9), unless a store overflows; then it is complete, the table
and the error report are as before, and no word at or above `N` has changed. -/
def Obligations.XformRunsToCompletion : Prop :=
  ∀ (N : BitVec 16) (s : State), Inv s → isSize s.cfg N.toNat = true → ReadyFor s N.toNat →
    ∃ s1, exec (.xform N) s = .next s1 ∧
      ((∃ sp j v, run (xformOps N.toNat) s1 = .fault (.overflow sp j v) ∧ ¬ fits s.cfg.sampleW v) ∨
       (∃ t, run (xformOps N.toNat) s1 = .next t ∧ t.status = { s.status with busy := false, done := true } ∧
          t.seq.phase = .idle ∧ t.tableA = s.tableA ∧ t.tw = s.tw ∧
          (∀ k < xformOps N.toNat, ∃ u, run k s1 = .next u ∧ u.status.busy = true) ∧
          (∀ j, N.toNat ≤ j → t.re.find j = s.re.find j ∧ t.im.find j = s.im.find j)))

/-- 44_butterfly_engine.md R162 with R139, R154, R160: when `RE` and `IM` have been written below `N` and no value of any stage leaves
SAMPLE_W bits, the transform completes and the taps are the composition of the stages, each stage applied to all taps at once. The number of steps is the model's (log 9). -/
def Obligations.XformComputesItsStages : Prop :=
  ∀ (N : BitVec 16) (s : State) (x : Nat → ScaledComplex), Inv s → isSize s.cfg N.toNat = true → ReadyFor s N.toNat →
    HoldsTaps s N.toNat x →
    (∀ st < stages N.toNat, ∀ j < N.toNat, fits s.cfg.sampleW (tapsAfter N.toNat x st j).re ∧
      fits s.cfg.sampleW (tapsAfter N.toNat x st j).im) →
    ∃ s1 t, exec (.xform N) s = .next s1 ∧ run (xformOps N.toNat) s1 = .next t ∧ t.status.busy = false ∧
      t.status.done = true ∧ HoldsTaps t N.toNat (tapsAfter N.toNat x (stages N.toNat - 1))

/-- 44_butterfly_engine.md R157, 60_exceptions.md R219: when some value of some stage does not fit SAMPLE_W bits, the transform has no
end state: it is the fault Overflow. The number of steps is the model's (log 9). -/
def Obligations.XformOverflowIsAFault : Prop :=
  ∀ (N : BitVec 16) (s : State) (x : Nat → ScaledComplex) (st j : Nat), Inv s → isSize s.cfg N.toNat = true →
    ReadyFor s N.toNat → HoldsTaps s N.toNat x → st < stages N.toNat → j < N.toNat →
    ¬(fits s.cfg.sampleW (tapsAfter N.toNat x st j).re ∧ fits s.cfg.sampleW (tapsAfter N.toNat x st j).im) →
    ∃ s1 sp i v, exec (.xform N) s = .next s1 ∧ run (xformOps N.toNat) s1 = .fault (.overflow sp i v)

/-- 44_butterfly_engine.md R164: the transform of size 2 is the exact 2-point transform, and `IM` is unchanged. The number of steps
is the model's (log 9). -/
def Obligations.TwoPointTransformIsExact : Prop :=
  ∀ (s : State) (x0 x1 : Int), Inv s → ReadyFor s 2 → s.re.find 0 = some x0 → s.re.find 1 = some x1 →
    fits s.cfg.sampleW (x0 + x1) → fits s.cfg.sampleW (x0 - x1) →
    ∃ s1 t, exec (.xform 2) s = .next s1 ∧ run 2 s1 = .next t ∧ t.status.busy = false ∧ t.status.done = true ∧
      t.re.find 0 = some (x0 + x1) ∧ t.re.find 1 = some (x0 - x1) ∧ t.im = s.im

/-- 00_scope.md R16, 41_twiddle_rom.md R121: the transform of size 4 is the exact 4-point transform of a real input. The number of
steps is the model's (log 9). -/
def Obligations.FourPointTransformIsExact : Prop :=
  ∀ (s : State) (x : Nat → Int), Inv s → 2 ≤ s.cfg.log2Amax → ReadyFor s 4 →
    HoldsTaps s 4 (fun j => ⟨x j, 0⟩) → (∀ j < 4, 4 * |x j| < ((2 ^ (s.cfg.sampleW - 1) : Nat) : Int)) →
    ∃ s1 t, exec (.xform 4) s = .next s1 ∧ run 4 s1 = .next t ∧ t.status.busy = false ∧ t.status.done = true ∧
      loadTap t 0 = ⟨x 0 + x 1 + x 2 + x 3, 0⟩ ∧ loadTap t 1 = ⟨x 0 - x 2, x 3 - x 1⟩ ∧
      loadTap t 2 = ⟨x 0 - x 1 + x 2 - x 3, 0⟩ ∧ loadTap t 3 = ⟨x 0 - x 2, x 1 - x 3⟩

/-- 95_test_vectors.md S2: the transform of an impulse is flat, exactly, at every size. The number of steps is the model's (log 9). -/
def Obligations.ImpulseGivesAFlatSpectrum : Prop :=
  ∀ (N : BitVec 16) (s : State) (K : Int), Inv s → isSize s.cfg N.toNat = true → ReadyFor s N.toNat →
    fits s.cfg.sampleW K → HoldsTaps s N.toNat (fun j => ⟨if j = 0 then K else 0, 0⟩) →
    ∃ s1 t, exec (.xform N) s = .next s1 ∧ run (xformOps N.toNat) s1 = .next t ∧ t.status.busy = false ∧
      t.status.done = true ∧ HoldsTaps t N.toNat (fun _ => ⟨K, 0⟩)

/-- 95_test_vectors.md S3: the transform of a constant is `N·K` in bin 0 and 0 in every other bin, exactly, at every size. The
number of steps is the model's (log 9). -/
def Obligations.ConstantGivesBinZero : Prop :=
  ∀ (N : BitVec 16) (s : State) (K : Int), Inv s → isSize s.cfg N.toNat = true → ReadyFor s N.toNat →
    fits s.cfg.sampleW ((N.toNat : Int) * K) → HoldsTaps s N.toNat (fun _ => ⟨K, 0⟩) →
    ∃ s1 t, exec (.xform N) s = .next s1 ∧ run (xformOps N.toNat) s1 = .next t ∧ t.status.busy = false ∧
      t.status.done = true ∧ HoldsTaps t N.toNat (fun j => ⟨if j = 0 then (N.toNat : Int) * K else 0, 0⟩)

/-- 44_butterfly_engine.md R169, 70_reset_and_hazards.md R248: with `IM = 0` and inputs of magnitude at most `B`, the headroom condition
`11·N·(B + 1) ≤ 10·(2^(SAMPLE_W-1) - 1)` rules overflow out; for the sizes whose tables the spec lists (`N ≤ 4096`). The number
of steps is the model's (log 9). -/
def Obligations.HeadroomRulesOverflowOut : Prop :=
  ∀ (N : BitVec 16) (s : State) (x : Nat → Int) (B : Nat), Inv s → isSize s.cfg N.toNat = true → N.toNat ≤ 4096 →
    ReadyFor s N.toNat → HoldsTaps s N.toNat (fun j => ⟨x j, 0⟩) → (∀ j < N.toNat, |x j| ≤ (B : Int)) →
    11 * N.toNat * (B + 1) ≤ 10 * (2 ^ (s.cfg.sampleW - 1) - 1) →
    ∃ s1 t, exec (.xform N) s = .next s1 ∧ run (xformOps N.toNat) s1 = .next t ∧ t.status.busy = false ∧ t.status.done = true

/-! ## Host programs -/

/-- 30_encoding.md R79: `WAIT` makes `RDST` again until the value read has bit 0 equal to 0. While BUSY = 1 the line stays; when the
block is idle the read returns STATUS, the line is done and nothing else changes. (That a Host works through its lines one edge
each is the model's choice: log 22.) -/
def Obligations.WaitRepeatsUntilBusyReadsZero : Prop :=
  ∀ (s : State) (rest : List HostLine) (e : Bool), s.uop = none →
    (s.status.busy = true →
      (∀ t left, programEdge e (.wait :: rest) s = .next (t, left) → t.rdata = some s.status.word ∧ left = .wait :: rest) ∧
      programEdge false (.wait :: rest) s = .next ({ atEdge s [] with rdata := some s.status.word }, .wait :: rest)) ∧
    (s.status.busy = false →
      programEdge e (.wait :: rest) s = .next ({ atEdge s [] with rdata := some s.status.word }, rest))

/-- 30_encoding.md R79, 44_butterfly_engine.md R162: the program `FFT N, [v0, ..., v(N-1)]` on an idle block with a table of base size
`N` loads the samples, zeroes `IM`, issues the transform and waits; when no value of any stage leaves SAMPLE_W bits it comes to
its end, and the taps are the composition of the stages on the loaded samples. (The number of edges is the model's: log 8, 9,
22.) -/
def Obligations.FftProgramLeavesTheTransform : Prop :=
  ∀ (N : BitVec 16) (s : State) (vs : List PortWord), Inv s → isSize s.cfg N.toNat = true → s.status.busy = false →
    s.status.tableValid = true → s.tableA = N.toNat → vs.length = N.toNat →
    let x : Nat → ScaledComplex := fun j => ⟨signedLow s.cfg.sampleW (vs.getD j 0), 0⟩;
    (∀ st < stages N.toNat, ∀ j < N.toNat, fits s.cfg.sampleW (tapsAfter N.toNat x st j).re ∧
      fits s.cfg.sampleW (tapsAfter N.toNat x st j).im) →
    ∃ t, runProgram (List.replicate (2 * N.toNat + 1 + xformOps N.toNat + 1) true) (pseudoFft N vs) s = .next (t, []) ∧
      t.status.busy = false ∧ t.status.done = true ∧ HoldsTaps t N.toNat (tapsAfter N.toNat x (stages N.toNat - 1))
end

