-- ==== Sys2Proof/Laws/Bits.lean ====
section
/-! SUPPORT. The laws of the number notation: sizes are powers of two, ranges, table depths, the bound of a table entry. -/

namespace Sys2Proof.Machine

/-- The bit test of 60_exceptions.md R212 says what it is meant to say. -/
theorem isPow2_iff {v : Nat} : isPow2 v = true ↔ ∃ m, 1 ≤ m ∧ v = 2 ^ m := by
  simp only [isPow2, Bool.and_eq_true, decide_eq_true_eq, beq_iff_eq]
  constructor
  · rintro ⟨h2, hv⟩
    obtain ⟨m, rfl⟩ := (Nat.and_sub_one_eq_zero_iff_isPowerOfTwo (by omega)).mp hv
    refine ⟨m, ?_, rfl⟩
    rcases m with _ | m
    · simp at h2
    · omega
  · rintro ⟨m, hm, rfl⟩
    refine ⟨?_, (Nat.and_sub_one_eq_zero_iff_isPowerOfTwo (by positivity)).mpr ⟨m, rfl⟩⟩
    calc 2 = 2 ^ 1 := by norm_num
      _ ≤ 2 ^ m := Nat.pow_le_pow_right (by norm_num) hm

theorem isSize_iff {c : Params} {v : Nat} : isSize c v = true ↔ ∃ m, 1 ≤ m ∧ m ≤ c.log2Amax ∧ v = 2 ^ m := by
  simp only [isSize, Bool.and_eq_true, decide_eq_true_eq, isPow2_iff]
  constructor
  · rintro ⟨hle, m, hm, rfl⟩
    exact ⟨m, hm, (Nat.pow_le_pow_iff_right Nat.one_lt_two).mp hle, rfl⟩
  · rintro ⟨m, hm, hle, rfl⟩
    exact ⟨Nat.pow_le_pow_right Nat.two_pos hle, m, hm, rfl⟩

theorem two_pow_log2_of_isSize {c : Params} {v : Nat} (h : isSize c v = true) : 2 ^ Nat.log2 v = v := by
  obtain ⟨m, -, -, rfl⟩ := isSize_iff.mp h
  rw [Nat.log2_two_pow]

theorem le_amax_of_isSize {c : Params} {v : Nat} (h : isSize c v = true) : v ≤ c.amax := by
  simp only [isSize, Bool.and_eq_true, decide_eq_true_eq] at h
  exact h.1

/-- Every first-quarter entry lies in `0 .. A` (41_twiddle_rom.md R111). -/
theorem quarterEntry_le (A j : Nat) : quarterEntry A j ≤ A := Nat.min_le_left _ _

/-- Every table entry lies in `-A .. A` (41_twiddle_rom.md R111). -/
theorem abs_twiddleEntry_le (A i : Nat) : |twiddleEntry A i| ≤ (A : Int) := by
  simp only [twiddleEntry]
  split_ifs <;> simp [quarterEntry_le]

/-- `T(A, i + A) = T(A, i)` (41_twiddle_rom.md R114). -/
@[simp] theorem twiddleEntry_add_self (A i : Nat) : twiddleEntry A (i + A) = twiddleEntry A i := by
  simp [twiddleEntry]

end Sys2Proof.Machine
end

