-- ==== Sys2Proof/Laws/Memory.lean ====
section
/-! SUPPORT. The laws of a memory: read after write, the frame of a write, and that every write keeps the canonical form. -/

namespace Sys2Proof.Machine

@[simp] theorem find_write_self (m : Memory) (i : Nat) (v : Int) : (Memory.write m i v).find i = some v := by
  induction m with
  | nil => simp [Memory.write, Memory.find]
  | cons c rest ih =>
    obtain ⟨j, w⟩ := c
    by_cases hlt : i < j
    · simp [Memory.write, Memory.find, hlt]
    · by_cases heq : i = j
      · simp [Memory.write, Memory.find, heq]
      · simp [Memory.write, Memory.find, hlt, heq, ih]

theorem find_write_ne (m : Memory) {i j : Nat} (v : Int) (h : j ≠ i) : (Memory.write m i v).find j = m.find j := by
  induction m with
  | nil => simp [Memory.write, Memory.find, h]
  | cons c rest ih =>
    obtain ⟨k, w⟩ := c
    by_cases hlt : i < k
    · simp [Memory.write, Memory.find, hlt, h]
    · by_cases heq : i = k
      · subst heq
        simp [Memory.write, Memory.find, h]
      · simp [Memory.write, Memory.find, hlt, heq, ih]

/-- Both cases of a read after a write. -/
theorem find_write (m : Memory) (i j : Nat) (v : Int) :
    (Memory.write m i v).find j = if j = i then some v else m.find j := by
  by_cases h : j = i
  · simp [h]
  · simp [h, find_write_ne m v h]

/-- A write brings in no cell but its own. -/
theorem mem_write {m : Memory} {i : Nat} {v : Int} {x : Nat × Int} (h : x ∈ Memory.write m i v) : x = (i, v) ∨ x ∈ m := by
  induction m with
  | nil => simpa [Memory.write] using h
  | cons c rest ih =>
    obtain ⟨j, w⟩ := c
    by_cases hlt : i < j
    · simpa [Memory.write, hlt] using h
    · by_cases heq : i = j
      · simp only [Memory.write, heq, lt_irrefl, if_false, if_true, List.mem_cons] at h
        rcases h with h | h
        · exact .inl (by rw [h, heq])
        · exact .inr (List.mem_cons_of_mem _ h)
      · simp only [Memory.write, hlt, heq, if_false, List.mem_cons] at h
        rcases h with h | h
        · exact .inr (by simp [h])
        · exact (ih h).imp_right (List.mem_cons_of_mem _)

/-- Every memory operation keeps the canonical form. -/
theorem write_wf {m : Memory} (hm : m.wf) (i : Nat) (v : Int) : (Memory.write m i v).wf := by
  induction m with
  | nil => simp [Memory.write, Memory.wf]
  | cons c rest ih =>
    obtain ⟨j, w⟩ := c
    have hm' : (j :: rest.map Prod.fst).Pairwise (· < ·) := hm
    obtain ⟨hj, hrest⟩ := List.pairwise_cons.mp hm'
    by_cases hlt : i < j
    · simp only [Memory.write, hlt, if_true, Memory.wf, List.map_cons, List.pairwise_cons]
      refine ⟨fun a ha => ?_, hj, hrest⟩
      rcases List.mem_cons.mp ha with rfl | ha
      · exact hlt
      · exact hlt.trans (hj a ha)
    · by_cases heq : i = j
      · subst heq
        simpa [Memory.write, Memory.wf] using And.intro hj hrest
      · simp only [Memory.write, hlt, heq, if_false, Memory.wf, List.map_cons, List.pairwise_cons]
        refine ⟨fun a ha => ?_, ih hrest⟩
        obtain ⟨x, hx, rfl⟩ := List.mem_map.mp ha
        rcases mem_write hx with rfl | hx
        · exact lt_of_le_of_ne (not_lt.mp hlt) (Ne.symm heq)
        · exact hj _ (List.mem_map.mpr ⟨x, hx, rfl⟩)

@[simp] theorem nil_wf : Memory.wf [] := by simp [Memory.wf]

/-- A listed word is a cell. -/
theorem mem_of_find {m : Memory} {i : Nat} {v : Int} (h : m.find i = some v) : (i, v) ∈ m := by
  induction m with
  | nil => simp [Memory.find] at h
  | cons c rest ih =>
    obtain ⟨j, w⟩ := c
    by_cases heq : i = j
    · simp only [Memory.find, heq, if_true, Option.some.injEq] at h
      simp [h, heq]
    · simp only [Memory.find, heq, if_false] at h
      exact List.mem_cons_of_mem _ (ih h)

end Sys2Proof.Machine
end

