-- ==== Sys2Proof/Laws/State.lean ====
section
/-! SUPPORT. One lemma for each field of the state and each named update: what the field is after the update. -/

namespace Sys2Proof.Machine.State

variable (s : State)

section

variable (x : Memory)

@[simp] theorem setRe_cfg : (s.setRe x).cfg = s.cfg := rfl
@[simp] theorem setRe_re : (s.setRe x).re = x := rfl
@[simp] theorem setRe_im : (s.setRe x).im = s.im := rfl
@[simp] theorem setRe_tw : (s.setRe x).tw = s.tw := rfl
@[simp] theorem setRe_tableA : (s.setRe x).tableA = s.tableA := rfl
@[simp] theorem setRe_status : (s.setRe x).status = s.status := rfl
@[simp] theorem setRe_seq : (s.setRe x).seq = s.seq := rfl
@[simp] theorem setRe_opnd : (s.setRe x).opnd = s.opnd := rfl
@[simp] theorem setRe_rdata : (s.setRe x).rdata = s.rdata := rfl
@[simp] theorem setRe_result : (s.setRe x).result = s.result := rfl
@[simp] theorem setRe_host : (s.setRe x).host = s.host := rfl
@[simp] theorem setRe_uop : (s.setRe x).uop = s.uop := rfl
@[simp] theorem setRe_draws : (s.setRe x).draws = s.draws := rfl

end

section

variable (x : Memory)

@[simp] theorem setIm_cfg : (s.setIm x).cfg = s.cfg := rfl
@[simp] theorem setIm_re : (s.setIm x).re = s.re := rfl
@[simp] theorem setIm_im : (s.setIm x).im = x := rfl
@[simp] theorem setIm_tw : (s.setIm x).tw = s.tw := rfl
@[simp] theorem setIm_tableA : (s.setIm x).tableA = s.tableA := rfl
@[simp] theorem setIm_status : (s.setIm x).status = s.status := rfl
@[simp] theorem setIm_seq : (s.setIm x).seq = s.seq := rfl
@[simp] theorem setIm_opnd : (s.setIm x).opnd = s.opnd := rfl
@[simp] theorem setIm_rdata : (s.setIm x).rdata = s.rdata := rfl
@[simp] theorem setIm_result : (s.setIm x).result = s.result := rfl
@[simp] theorem setIm_host : (s.setIm x).host = s.host := rfl
@[simp] theorem setIm_uop : (s.setIm x).uop = s.uop := rfl
@[simp] theorem setIm_draws : (s.setIm x).draws = s.draws := rfl

end

section

variable (x : Memory)

@[simp] theorem setTw_cfg : (s.setTw x).cfg = s.cfg := rfl
@[simp] theorem setTw_re : (s.setTw x).re = s.re := rfl
@[simp] theorem setTw_im : (s.setTw x).im = s.im := rfl
@[simp] theorem setTw_tw : (s.setTw x).tw = x := rfl
@[simp] theorem setTw_tableA : (s.setTw x).tableA = s.tableA := rfl
@[simp] theorem setTw_status : (s.setTw x).status = s.status := rfl
@[simp] theorem setTw_seq : (s.setTw x).seq = s.seq := rfl
@[simp] theorem setTw_opnd : (s.setTw x).opnd = s.opnd := rfl
@[simp] theorem setTw_rdata : (s.setTw x).rdata = s.rdata := rfl
@[simp] theorem setTw_result : (s.setTw x).result = s.result := rfl
@[simp] theorem setTw_host : (s.setTw x).host = s.host := rfl
@[simp] theorem setTw_uop : (s.setTw x).uop = s.uop := rfl
@[simp] theorem setTw_draws : (s.setTw x).draws = s.draws := rfl

end

section

variable (x : Nat)

@[simp] theorem setTableA_cfg : (s.setTableA x).cfg = s.cfg := rfl
@[simp] theorem setTableA_re : (s.setTableA x).re = s.re := rfl
@[simp] theorem setTableA_im : (s.setTableA x).im = s.im := rfl
@[simp] theorem setTableA_tw : (s.setTableA x).tw = s.tw := rfl
@[simp] theorem setTableA_tableA : (s.setTableA x).tableA = x := rfl
@[simp] theorem setTableA_status : (s.setTableA x).status = s.status := rfl
@[simp] theorem setTableA_seq : (s.setTableA x).seq = s.seq := rfl
@[simp] theorem setTableA_opnd : (s.setTableA x).opnd = s.opnd := rfl
@[simp] theorem setTableA_rdata : (s.setTableA x).rdata = s.rdata := rfl
@[simp] theorem setTableA_result : (s.setTableA x).result = s.result := rfl
@[simp] theorem setTableA_host : (s.setTableA x).host = s.host := rfl
@[simp] theorem setTableA_uop : (s.setTableA x).uop = s.uop := rfl
@[simp] theorem setTableA_draws : (s.setTableA x).draws = s.draws := rfl

end

section

variable (x : Status)

@[simp] theorem setStatus_cfg : (s.setStatus x).cfg = s.cfg := rfl
@[simp] theorem setStatus_re : (s.setStatus x).re = s.re := rfl
@[simp] theorem setStatus_im : (s.setStatus x).im = s.im := rfl
@[simp] theorem setStatus_tw : (s.setStatus x).tw = s.tw := rfl
@[simp] theorem setStatus_tableA : (s.setStatus x).tableA = s.tableA := rfl
@[simp] theorem setStatus_status : (s.setStatus x).status = x := rfl
@[simp] theorem setStatus_seq : (s.setStatus x).seq = s.seq := rfl
@[simp] theorem setStatus_opnd : (s.setStatus x).opnd = s.opnd := rfl
@[simp] theorem setStatus_rdata : (s.setStatus x).rdata = s.rdata := rfl
@[simp] theorem setStatus_result : (s.setStatus x).result = s.result := rfl
@[simp] theorem setStatus_host : (s.setStatus x).host = s.host := rfl
@[simp] theorem setStatus_uop : (s.setStatus x).uop = s.uop := rfl
@[simp] theorem setStatus_draws : (s.setStatus x).draws = s.draws := rfl

end

section

variable (x : Seq)

@[simp] theorem setSeq_cfg : (s.setSeq x).cfg = s.cfg := rfl
@[simp] theorem setSeq_re : (s.setSeq x).re = s.re := rfl
@[simp] theorem setSeq_im : (s.setSeq x).im = s.im := rfl
@[simp] theorem setSeq_tw : (s.setSeq x).tw = s.tw := rfl
@[simp] theorem setSeq_tableA : (s.setSeq x).tableA = s.tableA := rfl
@[simp] theorem setSeq_status : (s.setSeq x).status = s.status := rfl
@[simp] theorem setSeq_seq : (s.setSeq x).seq = x := rfl
@[simp] theorem setSeq_opnd : (s.setSeq x).opnd = s.opnd := rfl
@[simp] theorem setSeq_rdata : (s.setSeq x).rdata = s.rdata := rfl
@[simp] theorem setSeq_result : (s.setSeq x).result = s.result := rfl
@[simp] theorem setSeq_host : (s.setSeq x).host = s.host := rfl
@[simp] theorem setSeq_uop : (s.setSeq x).uop = s.uop := rfl
@[simp] theorem setSeq_draws : (s.setSeq x).draws = s.draws := rfl

end

section

variable (x : OperandRegs)

@[simp] theorem setOpnd_cfg : (s.setOpnd x).cfg = s.cfg := rfl
@[simp] theorem setOpnd_re : (s.setOpnd x).re = s.re := rfl
@[simp] theorem setOpnd_im : (s.setOpnd x).im = s.im := rfl
@[simp] theorem setOpnd_tw : (s.setOpnd x).tw = s.tw := rfl
@[simp] theorem setOpnd_tableA : (s.setOpnd x).tableA = s.tableA := rfl
@[simp] theorem setOpnd_status : (s.setOpnd x).status = s.status := rfl
@[simp] theorem setOpnd_seq : (s.setOpnd x).seq = s.seq := rfl
@[simp] theorem setOpnd_opnd : (s.setOpnd x).opnd = x := rfl
@[simp] theorem setOpnd_rdata : (s.setOpnd x).rdata = s.rdata := rfl
@[simp] theorem setOpnd_result : (s.setOpnd x).result = s.result := rfl
@[simp] theorem setOpnd_host : (s.setOpnd x).host = s.host := rfl
@[simp] theorem setOpnd_uop : (s.setOpnd x).uop = s.uop := rfl
@[simp] theorem setOpnd_draws : (s.setOpnd x).draws = s.draws := rfl

end

section

variable (x : Option PortWord)

@[simp] theorem setRdata_cfg : (s.setRdata x).cfg = s.cfg := rfl
@[simp] theorem setRdata_re : (s.setRdata x).re = s.re := rfl
@[simp] theorem setRdata_im : (s.setRdata x).im = s.im := rfl
@[simp] theorem setRdata_tw : (s.setRdata x).tw = s.tw := rfl
@[simp] theorem setRdata_tableA : (s.setRdata x).tableA = s.tableA := rfl
@[simp] theorem setRdata_status : (s.setRdata x).status = s.status := rfl
@[simp] theorem setRdata_seq : (s.setRdata x).seq = s.seq := rfl
@[simp] theorem setRdata_opnd : (s.setRdata x).opnd = s.opnd := rfl
@[simp] theorem setRdata_rdata : (s.setRdata x).rdata = x := rfl
@[simp] theorem setRdata_result : (s.setRdata x).result = s.result := rfl
@[simp] theorem setRdata_host : (s.setRdata x).host = s.host := rfl
@[simp] theorem setRdata_uop : (s.setRdata x).uop = s.uop := rfl
@[simp] theorem setRdata_draws : (s.setRdata x).draws = s.draws := rfl

end

section

variable (x : Result)

@[simp] theorem setResult_cfg : (s.setResult x).cfg = s.cfg := rfl
@[simp] theorem setResult_re : (s.setResult x).re = s.re := rfl
@[simp] theorem setResult_im : (s.setResult x).im = s.im := rfl
@[simp] theorem setResult_tw : (s.setResult x).tw = s.tw := rfl
@[simp] theorem setResult_tableA : (s.setResult x).tableA = s.tableA := rfl
@[simp] theorem setResult_status : (s.setResult x).status = s.status := rfl
@[simp] theorem setResult_seq : (s.setResult x).seq = s.seq := rfl
@[simp] theorem setResult_opnd : (s.setResult x).opnd = s.opnd := rfl
@[simp] theorem setResult_rdata : (s.setResult x).rdata = s.rdata := rfl
@[simp] theorem setResult_result : (s.setResult x).result = x := rfl
@[simp] theorem setResult_host : (s.setResult x).host = s.host := rfl
@[simp] theorem setResult_uop : (s.setResult x).uop = s.uop := rfl
@[simp] theorem setResult_draws : (s.setResult x).draws = s.draws := rfl

end

section

variable (x : List PortCycle)

@[simp] theorem setHost_cfg : (s.setHost x).cfg = s.cfg := rfl
@[simp] theorem setHost_re : (s.setHost x).re = s.re := rfl
@[simp] theorem setHost_im : (s.setHost x).im = s.im := rfl
@[simp] theorem setHost_tw : (s.setHost x).tw = s.tw := rfl
@[simp] theorem setHost_tableA : (s.setHost x).tableA = s.tableA := rfl
@[simp] theorem setHost_status : (s.setHost x).status = s.status := rfl
@[simp] theorem setHost_seq : (s.setHost x).seq = s.seq := rfl
@[simp] theorem setHost_opnd : (s.setHost x).opnd = s.opnd := rfl
@[simp] theorem setHost_rdata : (s.setHost x).rdata = s.rdata := rfl
@[simp] theorem setHost_result : (s.setHost x).result = s.result := rfl
@[simp] theorem setHost_host : (s.setHost x).host = x := rfl
@[simp] theorem setHost_uop : (s.setHost x).uop = s.uop := rfl
@[simp] theorem setHost_draws : (s.setHost x).draws = s.draws := rfl

end

section

variable (x : Option UopWord)

@[simp] theorem setUop_cfg : (s.setUop x).cfg = s.cfg := rfl
@[simp] theorem setUop_re : (s.setUop x).re = s.re := rfl
@[simp] theorem setUop_im : (s.setUop x).im = s.im := rfl
@[simp] theorem setUop_tw : (s.setUop x).tw = s.tw := rfl
@[simp] theorem setUop_tableA : (s.setUop x).tableA = s.tableA := rfl
@[simp] theorem setUop_status : (s.setUop x).status = s.status := rfl
@[simp] theorem setUop_seq : (s.setUop x).seq = s.seq := rfl
@[simp] theorem setUop_opnd : (s.setUop x).opnd = s.opnd := rfl
@[simp] theorem setUop_rdata : (s.setUop x).rdata = s.rdata := rfl
@[simp] theorem setUop_result : (s.setUop x).result = s.result := rfl
@[simp] theorem setUop_host : (s.setUop x).host = s.host := rfl
@[simp] theorem setUop_uop : (s.setUop x).uop = x := rfl
@[simp] theorem setUop_draws : (s.setUop x).draws = s.draws := rfl

end

section

variable (x : Nat)

@[simp] theorem setDraws_cfg : (s.setDraws x).cfg = s.cfg := rfl
@[simp] theorem setDraws_re : (s.setDraws x).re = s.re := rfl
@[simp] theorem setDraws_im : (s.setDraws x).im = s.im := rfl
@[simp] theorem setDraws_tw : (s.setDraws x).tw = s.tw := rfl
@[simp] theorem setDraws_tableA : (s.setDraws x).tableA = s.tableA := rfl
@[simp] theorem setDraws_status : (s.setDraws x).status = s.status := rfl
@[simp] theorem setDraws_seq : (s.setDraws x).seq = s.seq := rfl
@[simp] theorem setDraws_opnd : (s.setDraws x).opnd = s.opnd := rfl
@[simp] theorem setDraws_rdata : (s.setDraws x).rdata = s.rdata := rfl
@[simp] theorem setDraws_result : (s.setDraws x).result = s.result := rfl
@[simp] theorem setDraws_host : (s.setDraws x).host = s.host := rfl
@[simp] theorem setDraws_uop : (s.setDraws x).uop = s.uop := rfl
@[simp] theorem setDraws_draws : (s.setDraws x).draws = x := rfl

end

@[simp] theorem nextEdge_cfg : s.nextEdge.cfg = s.cfg := rfl
@[simp] theorem nextEdge_re : s.nextEdge.re = s.re := rfl
@[simp] theorem nextEdge_im : s.nextEdge.im = s.im := rfl
@[simp] theorem nextEdge_tw : s.nextEdge.tw = s.tw := rfl
@[simp] theorem nextEdge_tableA : s.nextEdge.tableA = s.tableA := rfl
@[simp] theorem nextEdge_status : s.nextEdge.status = s.status := rfl
@[simp] theorem nextEdge_seq : s.nextEdge.seq = s.seq := rfl
@[simp] theorem nextEdge_opnd : s.nextEdge.opnd = s.opnd := rfl
@[simp] theorem nextEdge_rdata : s.nextEdge.rdata = none := rfl
@[simp] theorem nextEdge_result : s.nextEdge.result = s.result := rfl
@[simp] theorem nextEdge_host : s.nextEdge.host = s.host := rfl
@[simp] theorem nextEdge_uop : s.nextEdge.uop = s.uop := rfl
@[simp] theorem nextEdge_draws : s.nextEdge.draws = s.draws + 1 := rfl

end Sys2Proof.Machine.State
end

