-- ==== Sys2Proof/Laws/Ops.lean ====
section
/-! SUPPORT. One lemma for each shared operation: everything it can do. -/

namespace Sys2Proof.Machine

/-! Sequencing of answers. -/

@[simp] theorem andThen_next (s : State) (f : State → Answer) : andThen (.next s) f = f s := rfl
@[simp] theorem andThen_fault (x : Fault) (f : State → Answer) : andThen (.fault x) f = .fault x := rfl
@[simp] theorem andThen_refused (x : Refusal) (f : State → Answer) : andThen (.refused x) f = .refused x := rfl

theorem andThen_eq_next {r : Answer} {f : State → Answer} {t : State} (h : andThen r f = .next t) :
    ∃ s, r = .next s ∧ f s = .next t := by
  cases r with
  | next s => exact ⟨s, rfl, h⟩
  | fault x => simp at h
  | refused x => simp at h

theorem andThen_eq_fault {r : Answer} {f : State → Answer} {x : Fault} (h : andThen r f = .fault x) :
    r = .fault x ∨ ∃ s, r = .next s ∧ f s = .fault x := by
  cases r with
  | next s => exact .inr ⟨s, rfl, h⟩
  | fault y => exact .inl (by simpa using h)
  | refused y => simp at h

/-! Memories inside the state. -/

@[simp] theorem mem_re (s : State) : s.mem .re = s.re := rfl
@[simp] theorem mem_im (s : State) : s.mem .im = s.im := rfl
@[simp] theorem mem_tw (s : State) : s.mem .tw = s.tw := rfl

@[simp] theorem setMem_mem_self (s : State) (sp : Space) (m : Memory) : (s.setMem sp m).mem sp = m := by
  cases sp <;> rfl

theorem setMem_mem_ne (s : State) {sp sq : Space} (m : Memory) (h : sq ≠ sp) : (s.setMem sp m).mem sq = s.mem sq := by
  cases sp <;> cases sq <;> first | rfl | exact absurd rfl h

/-- What a store of a word leaves as it was: every field but the memory of its space. -/
theorem setMem_frame (s : State) (sp : Space) (m : Memory) :
    (s.setMem sp m).cfg = s.cfg ∧ (s.setMem sp m).tableA = s.tableA ∧ (s.setMem sp m).status = s.status ∧
    (s.setMem sp m).seq = s.seq ∧ (s.setMem sp m).opnd = s.opnd ∧ (s.setMem sp m).rdata = s.rdata ∧
    (s.setMem sp m).result = s.result ∧ (s.setMem sp m).host = s.host ∧ (s.setMem sp m).uop = s.uop ∧
    (s.setMem sp m).draws = s.draws := by
  cases sp <;> simp [State.setMem]

section put

variable (s : State) (sp : Space) (i : Nat) (v : Int)

@[simp] theorem put_cfg : (put s sp i v).cfg = s.cfg := (setMem_frame s sp _).1
@[simp] theorem put_tableA : (put s sp i v).tableA = s.tableA := (setMem_frame s sp _).2.1
@[simp] theorem put_status : (put s sp i v).status = s.status := (setMem_frame s sp _).2.2.1
@[simp] theorem put_seq : (put s sp i v).seq = s.seq := (setMem_frame s sp _).2.2.2.1
@[simp] theorem put_opnd : (put s sp i v).opnd = s.opnd := (setMem_frame s sp _).2.2.2.2.1
@[simp] theorem put_rdata : (put s sp i v).rdata = s.rdata := (setMem_frame s sp _).2.2.2.2.2.1
@[simp] theorem put_result : (put s sp i v).result = s.result := (setMem_frame s sp _).2.2.2.2.2.2.1
@[simp] theorem put_host : (put s sp i v).host = s.host := (setMem_frame s sp _).2.2.2.2.2.2.2.1
@[simp] theorem put_uop : (put s sp i v).uop = s.uop := (setMem_frame s sp _).2.2.2.2.2.2.2.2.1
@[simp] theorem put_draws : (put s sp i v).draws = s.draws := (setMem_frame s sp _).2.2.2.2.2.2.2.2.2

@[simp] theorem put_re_im : (put s .re i v).im = s.im := rfl
@[simp] theorem put_re_tw : (put s .re i v).tw = s.tw := rfl
@[simp] theorem put_im_re : (put s .im i v).re = s.re := rfl
@[simp] theorem put_im_tw : (put s .im i v).tw = s.tw := rfl
@[simp] theorem put_tw_re : (put s .tw i v).re = s.re := rfl
@[simp] theorem put_tw_im : (put s .tw i v).im = s.im := rfl

end put

/-- Reading a word after a store: the stored value at its place, the old word everywhere else. -/
theorem load_put (s : State) (sp sq : Space) (i j : Nat) (v : Int) :
    load (put s sp i v) sq j = if sq = sp ∧ j = i then v else load s sq j := by
  by_cases hsp : sq = sp
  · subst hsp
    by_cases hj : j = i
    · simp [load, put, hj]
    · simp [load, put, find_write_ne _ _ hj, hj, unspecifiedWord, (setMem_frame s sq _).1, (setMem_frame s sq _).2.2.2.2.2.2.2.2.2]
  · simp [load, put, setMem_mem_ne s _ hsp, hsp, unspecifiedWord, (setMem_frame s sp _).1, (setMem_frame s sp _).2.2.2.2.2.2.2.2.2]

/-- A listed word is what a load finds. -/
theorem load_of_find {s : State} {sp : Space} {i : Nat} {v : Int} (h : (s.mem sp).find i = some v) : load s sp i = v := by
  simp [load, h]

/-- A load depends on the memory of its space, the configuration and the counter of free values, and on nothing else. -/
theorem load_congr {s t : State} {sp : Space} (i : Nat) (hm : t.mem sp = s.mem sp) (hc : t.cfg = s.cfg) (hd : t.draws = s.draws) :
    load t sp i = load s sp i := by
  simp [load, hm, unspecifiedWord, hc, hd]

/-- The checked store: it stores what fits, and what does not fit is the fault of 60_exceptions.md R219. -/
theorem store_eq (sp : Space) (j : Nat) (v : Int) (s : State) :
    (fits s.cfg.sampleW v ∧ store sp j v s = .next (put s sp j v)) ∨
    (¬ fits s.cfg.sampleW v ∧ store sp j v s = .fault (.overflow sp j v)) := by
  by_cases h : fits s.cfg.sampleW v
  · exact .inl ⟨h, by simp only [store, if_pos h]⟩
  · exact .inr ⟨h, by simp only [store, if_neg h]⟩

theorem store_next {sp : Space} {j : Nat} {v : Int} {s t : State} (h : store sp j v s = .next t) :
    fits s.cfg.sampleW v ∧ t = put s sp j v := by
  rcases store_eq sp j v s with ⟨hf, he⟩ | ⟨-, he⟩
  · rw [he] at h
    injection h with h
    exact ⟨hf, h.symm⟩
  · rw [he] at h
    cases h

theorem store_fault {sp : Space} {j : Nat} {v : Int} {s : State} {x : Fault} (h : store sp j v s = .fault x) :
    x = .overflow sp j v ∧ ¬ fits s.cfg.sampleW v := by
  rcases store_eq sp j v s with ⟨-, he⟩ | ⟨hf, he⟩
  · rw [he] at h
    cases h
  · rw [he] at h
    injection h with h
    exact ⟨h.symm, hf⟩

/-- The store of a tap: both parts fit and both are stored, or it is a fault of the first part that does not fit. -/
theorem storeTap_next {j : Nat} {v : ScaledComplex} {s t : State} (h : storeTap j v s = .next t) :
    fits s.cfg.sampleW v.re ∧ fits s.cfg.sampleW v.im ∧ t = put (put s .re j v.re) .im j v.im := by
  obtain ⟨s1, h1, h2⟩ := andThen_eq_next h
  obtain ⟨hre, rfl⟩ := store_next h1
  obtain ⟨him, rfl⟩ := store_next h2
  exact ⟨hre, by simpa using him, rfl⟩

theorem storeTap_fault {j : Nat} {v : ScaledComplex} {s : State} {x : Fault} (h : storeTap j v s = .fault x) :
    (x = .overflow .re j v.re ∧ ¬ fits s.cfg.sampleW v.re) ∨ (x = .overflow .im j v.im ∧ ¬ fits s.cfg.sampleW v.im) := by
  rcases andThen_eq_fault h with h1 | ⟨s1, h1, h2⟩
  · exact .inl (store_fault h1)
  · obtain ⟨-, rfl⟩ := store_next h1
    obtain ⟨hx, hf⟩ := store_fault h2
    exact .inr ⟨hx, by simpa using hf⟩

/-! The rejection of an access, and its acknowledgement. -/

/-- A rejection changes nothing but ERR and ERR_CODE, and those only when ERR was 0 (60_exceptions.md R214). -/
theorem reject_eq (c : Cause) (s : State) :
    (s.status.err = true ∧ reject c s = s) ∨
    (s.status.err = false ∧ reject c s = { s with status := { s.status with err := true, errCode := c.code } }) := by
  cases h : s.status.err
  · exact .inr ⟨rfl, by simp [reject, Status.reject, h, State.setStatus]⟩
  · exact .inl ⟨rfl, by simp [reject, Status.reject, h, State.setStatus]⟩

@[simp] theorem reject_busy (c : Cause) (s : State) : (reject c s).status.busy = s.status.busy := by
  rcases reject_eq c s with ⟨-, h⟩ | ⟨-, h⟩ <;> rw [h]

@[simp] theorem reject_done (c : Cause) (s : State) : (reject c s).status.done = s.status.done := by
  rcases reject_eq c s with ⟨-, h⟩ | ⟨-, h⟩ <;> rw [h]

@[simp] theorem reject_tableValid (c : Cause) (s : State) : (reject c s).status.tableValid = s.status.tableValid := by
  rcases reject_eq c s with ⟨-, h⟩ | ⟨-, h⟩ <;> rw [h]

@[simp] theorem reject_err (c : Cause) (s : State) : (reject c s).status.err = true := by
  rcases reject_eq c s with ⟨he, h⟩ | ⟨-, h⟩ <;> rw [h]
  exact he

section reject

variable (c : Cause) (s : State)

@[simp] theorem reject_cfg : (reject c s).cfg = s.cfg := rfl
@[simp] theorem reject_re : (reject c s).re = s.re := rfl
@[simp] theorem reject_im : (reject c s).im = s.im := rfl
@[simp] theorem reject_tw : (reject c s).tw = s.tw := rfl
@[simp] theorem reject_tableA : (reject c s).tableA = s.tableA := rfl
@[simp] theorem reject_seq : (reject c s).seq = s.seq := rfl
@[simp] theorem reject_opnd : (reject c s).opnd = s.opnd := rfl
@[simp] theorem reject_rdata : (reject c s).rdata = s.rdata := rfl
@[simp] theorem reject_result : (reject c s).result = s.result := rfl
@[simp] theorem reject_host : (reject c s).host = s.host := rfl
@[simp] theorem reject_uop : (reject c s).uop = s.uop := rfl
@[simp] theorem reject_draws : (reject c s).draws = s.draws := rfl

end reject

/-- The acknowledgement written out (45_commands.md R184). -/
theorem acknowledge_eq (s : State) :
    acknowledge s = { s with status := { s.status with done := false, err := false, errCode := 0 } } := rfl

/-- The end of a table's life written out (45_commands.md R183). -/
theorem dropTable_eq (s : State) :
    dropTable s = { s with status := { s.status with tableValid := false }, tableA := 0, tw := [] } := rfl

/-- The issue of a command has three outcomes, all of them next states (45_commands.md R180). -/
theorem issue_cases (check : State → Option Cause) (accept : State → State) (s : State) :
    (s.status.busy = true ∧ issue check accept s = .next (reject .busyViolation s)) ∨
    (s.status.busy = false ∧ ∃ c, check s = some c ∧ issue check accept s = .next (reject c s)) ∨
    (s.status.busy = false ∧ check s = none ∧ issue check accept s = .next (accept s)) := by
  cases hb : s.status.busy
  · cases hc : check s with
    | none => exact .inr (.inr ⟨rfl, rfl, by simp [issue, hb, hc]⟩)
    | some c => exact .inr (.inl ⟨rfl, c, rfl, by simp [issue, hb, hc]⟩)
  · exact .inl ⟨rfl, by simp [issue, hb]⟩

/-- Delivering a result always answers a next state and changes the result output alone. -/
@[simp] theorem deliver_eq (r : Result) (s : State) : deliver r s = .next { s with result := r } := rfl

end Sys2Proof.Machine
end

