-- ==== Sys2Proof/Laws/Meanings.lean ====
section
/-! SUPPORT. One lemma for each operation that several meanings share: everything it can do when it answers a next state, and what no
instruction changes. -/

namespace Sys2Proof.Machine

/-! The twiddle lookup. -/

theorem lookup_eq_some {s : State} {z P : Nat} {w : ScaledComplex} (h : lookup s z P = some w) :
    LookupDefined s z P ∧ w = ⟨load s .tw (lookupIndex s.tableA z P),
      load s .tw (lookupIndex s.tableA z P + quarterOffset s.tableA)⟩ := by
  unfold lookup at h
  split at h
  · next hd => exact ⟨hd, by simpa using h.symm⟩
  · cases h

theorem lookup_eq_none {s : State} {z P : Nat} (h : lookup s z P = none) : ¬ LookupDefined s z P := by
  unfold lookup at h
  split at h
  · cases h
  · assumption

/-- The lookup reads the table, its descriptor, the configuration and the free values, and nothing else. -/
theorem lookup_congr {s t : State} (z P : Nat) (htw : t.tw = s.tw) (hA : t.tableA = s.tableA) (hst : t.status = s.status)
    (hc : t.cfg = s.cfg) (hd : t.draws = s.draws) : lookup t z P = lookup s z P := by
  have hl : ∀ i, load t .tw i = load s .tw i := fun i => load_congr i htw hc hd
  simp only [lookup, LookupDefined, hA, hst, hl]

/-! Butterflies. -/

/-- The whole next state of a butterfly (44_butterfly_engine.md R156). -/
theorem butterfly_next {a b z p m : Nat} {s t : State} (h : butterfly a b z p m s = .next t) :
    a < s.cfg.amax ∧ b < s.cfg.amax ∧ ∃ w, lookup s z (2 * p) = some w ∧
      let r := latch s a b m w
      let u := cadd r.e r.t
      let v := csub r.e r.t
      fits s.cfg.sampleW u.re ∧ fits s.cfg.sampleW u.im ∧ fits s.cfg.sampleW v.re ∧ fits s.cfg.sampleW v.im ∧
      t = put (put (put (put (s.setOpnd r) .re a u.re) .im a u.im) .re b v.re) .im b v.im := by
  unfold butterfly at h
  split at h
  · next hab =>
    split at h
    · cases h
    · next w hw =>
      obtain ⟨s1, h1, h2⟩ := andThen_eq_next h
      obtain ⟨h1r, h1i, rfl⟩ := storeTap_next h1
      obtain ⟨h2r, h2i, rfl⟩ := storeTap_next h2
      exact ⟨hab.1, hab.2, w, hw, h1r, h1i, by simpa using h2r, by simpa using h2i, rfl⟩
  · cases h

/-- What a butterfly leaves as it was. -/
theorem butterfly_frame {a b z p m : Nat} {s t : State} (h : butterfly a b z p m s = .next t) :
    t = { s with re := t.re, im := t.im, opnd := t.opnd } := by
  obtain ⟨-, -, w, -, -, -, -, -, rfl⟩ := butterfly_next h
  rfl

/-- A butterfly stops with an overflow of one of its taps' stores, or not with a fault. -/
theorem butterfly_fault {a b z p m : Nat} {s : State} {x : Fault} (h : butterfly a b z p m s = .fault x) :
    ∃ sp j v, x = .overflow sp j v ∧ sp ≠ .tw ∧ (j = a ∨ j = b) ∧ ¬ fits s.cfg.sampleW v := by
  unfold butterfly at h
  split at h
  · split at h
    · cases h
    · rcases andThen_eq_fault h with h1 | ⟨s1, h1, h2⟩
      · rcases storeTap_fault h1 with ⟨rfl, hf⟩ | ⟨rfl, hf⟩
        · exact ⟨_, _, _, rfl, by decide, .inl rfl, hf⟩
        · exact ⟨_, _, _, rfl, by decide, .inl rfl, hf⟩
      · obtain ⟨-, -, rfl⟩ := storeTap_next h1
        rcases storeTap_fault h2 with ⟨rfl, hf⟩ | ⟨rfl, hf⟩
        · exact ⟨_, _, _, rfl, by decide, .inr rfl, by simpa using hf⟩
        · exact ⟨_, _, _, rfl, by decide, .inr rfl, by simpa using hf⟩
  · cases h

/-- The two butterflies of a dual butterfly, one after the other (44_butterfly_engine.md R158). -/
theorem execDbfly_next {i k2 z p M : Nat} {s t : State} (h : execDbfly i k2 z p M s = .next t) :
    ∃ s1 s2, butterfly i (i + k2) z p M s = .next s1 ∧ butterfly (i + 1) (i + 1 + k2) (nextZ z p) p M s1 = .next s2 ∧
      t = { s2 with result := .index (nextZ (nextZ z p) p) } := by
  obtain ⟨s1, h1, h2⟩ := andThen_eq_next h
  obtain ⟨s2, h3, h4⟩ := andThen_eq_next h2
  refine ⟨s1, s2, h1, h3, ?_⟩
  rw [deliver_eq] at h4
  injection h4 with h4
  exact h4.symm

/-- The whole next state of a stage-0 combine (44_butterfly_engine.md R153). -/
theorem execPair0_next {i : Nat} {s t : State} (h : execPair0 i s = .next t) :
    i + 1 < s.cfg.amax ∧ fits s.cfg.sampleW (load s .re i + load s .re (i + 1)) ∧
      fits s.cfg.sampleW (load s .re i - load s .re (i + 1)) ∧
      t = put (put s .re i (load s .re i + load s .re (i + 1))) .re (i + 1) (load s .re i - load s .re (i + 1)) := by
  unfold execPair0 at h
  split at h
  · next hi =>
    obtain ⟨s1, h1, h2⟩ := andThen_eq_next h
    obtain ⟨hf1, rfl⟩ := store_next h1
    obtain ⟨hf2, rfl⟩ := store_next h2
    exact ⟨hi, hf1, by simpa using hf2, rfl⟩
  · cases h

/-! The reorder pass. -/

theorem load_swapRe (s : State) (i n j : Nat) :
    load (swapRe i n s) .re j = if j = n then load s .re i else if j = i then load s .re n else load s .re j := by
  simp only [swapRe, load_put, true_and]

/-- Reversing `m` bits gives an index below `2^m`. -/
theorem reverseBits_lt (m j : Nat) : reverseBits m j < 2 ^ m := by
  induction m generalizing j with
  | zero => exact Nat.one_pos
  | succ m ih =>
    have h := ih (j / 2)
    have h2 : j % 2 * 2 ^ m ≤ 1 * 2 ^ m := Nat.mul_le_mul_right _ (by omega)
    rw [reverseBits, pow_succ]
    omega

/-- In a pass over a legal size the index is the bit reversal (43_bit_reversal.md R137). -/
theorem passIndex_of_isSize {s : State} {N : Nat} (i : Nat) (h : isSize s.cfg N = true) : passIndex s i N = bitReverse i N := by
  simp [passIndex, h]

/-- Every index of a pass is one of `RE`. -/
theorem passIndex_lt (s : State) (i N : Nat) : passIndex s i N < s.cfg.amax := by
  unfold passIndex
  split
  · next h =>
    simp only [isSize, isPow2, Bool.and_eq_true, decide_eq_true_eq] at h
    exact lt_of_lt_of_le (reverseBits_lt _ _) ((Nat.log2_self_le (by omega)).trans h.1)
  · exact Nat.mod_lt _ (Nat.two_pow_pos _)

theorem reorderAt_frame (N : Nat) (s : State) (i : Nat) : reorderAt N s i = { s with re := (reorderAt N s i).re } := by
  unfold reorderAt
  split
  · rfl
  · rfl

/-- The loop of the reorder pass changes `RE` alone. -/
theorem reorder_frame (N : Nat) (l : List Nat) (s : State) :
    l.foldl (reorderAt N) s = { s with re := (l.foldl (reorderAt N) s).re } := by
  induction l generalizing s with
  | nil => rfl
  | cons i l ih =>
    rw [List.foldl_cons, ih, reorderAt_frame]

/-- What a reorder pass does, for every operand: it answers a next state in which only `RE` differs. -/
theorem execBrpass_next (N : Nat) (s : State) : ∃ t, execBrpass N s = .next t ∧ t = { s with re := t.re } :=
  ⟨_, rfl, reorder_frame N _ s⟩

/-! The table. -/

/-- A generated entry of a base size is `T(A, i)` (41_twiddle_rom.md R115). -/
theorem generatedEntry_of_isSize {s : State} {A : Nat} (i : Nat) (h : isSize s.cfg A = true) :
    generatedEntry s A i = twiddleEntry A i := by
  simp [generatedEntry, h]

/-- What TWGEN does at an index that has a word: it writes that word alone. -/
theorem execTwgen_next {s : State} {i : Nat} (A : Nat) (h : i < Params.spaceWords s.cfg .tw) :
    execTwgen A i s = .next (put s .tw i (generatedEntry s A i)) := by
  simp [execTwgen, h]

/-! Every instruction. -/

/-- What no instruction changes: the configuration, the read port, the Host's coming cycles, the select lines and the counter of
free values. -/
theorem exec_next_frame {i : Instr} {s t : State} (h : exec i s = .next t) :
    t.cfg = s.cfg ∧ t.rdata = s.rdata ∧ t.host = s.host ∧ t.uop = s.uop ∧ t.draws = s.draws := by
  have issued : ∀ check accept, (∀ u : State, (accept u).cfg = u.cfg ∧ (accept u).rdata = u.rdata ∧
      (accept u).host = u.host ∧ (accept u).uop = u.uop ∧ (accept u).draws = u.draws) →
      issue check accept s = .next t →
      t.cfg = s.cfg ∧ t.rdata = s.rdata ∧ t.host = s.host ∧ t.uop = s.uop ∧ t.draws = s.draws := by
    intro check accept ha hi
    rcases issue_cases check accept s with ⟨-, he⟩ | ⟨-, c, -, he⟩ | ⟨-, -, he⟩ <;> rw [he] at hi <;> injection hi with hi <;>
      subst hi
    · exact ⟨rfl, rfl, rfl, rfl, rfl⟩
    · exact ⟨rfl, rfl, rfl, rfl, rfl⟩
    · exact ha s
  have delivered : ∀ {r}, deliver r s = .next t →
      t.cfg = s.cfg ∧ t.rdata = s.rdata ∧ t.host = s.host ∧ t.uop = s.uop ∧ t.draws = s.draws := by
    intro r hr
    rw [deliver_eq] at hr
    injection hr with hr
    subst hr
    exact ⟨rfl, rfl, rfl, rfl, rfl⟩
  cases i with
  | build size => exact issued (checkBuild size.toNat) (acceptBuild size.toNat) (fun u => ⟨rfl, rfl, rfl, rfl, rfl⟩) h
  | xform size => exact issued (checkXform size.toNat) (acceptXform size.toNat) (fun u => ⟨rfl, rfl, rfl, rfl, rfl⟩) h
  | release => exact issued checkRelease acceptRelease (fun u => ⟨rfl, rfl, rfl, rfl, rfl⟩) h
  | clrstat => exact issued (fun _ => none) acknowledge (fun u => ⟨rfl, rfl, rfl, rfl, rfl⟩) h
  | cadd a b => exact delivered h
  | csub a b => exact delivered h
  | cmul a b => exact delivered h
  | crsh a sh =>
    simp only [exec, execCrsh] at h
    split at h
    · cases h
    · exact delivered h
  | twlk z P =>
    simp only [exec, execTwlk] at h
    split at h
    · exact delivered h
    · cases h
  | brev j N =>
    simp only [exec, execBrev] at h
    split at h
    · exact delivered h
    · exact delivered h
  | brpass N =>
    simp only [exec, execBrpass] at h
    injection h with h
    subst h
    rw [reorder_frame]
    exact ⟨rfl, rfl, rfl, rfl, rfl⟩
  | pair0 j =>
    obtain ⟨-, -, -, rfl⟩ := execPair0_next h
    simp
  | bfly a b z p M =>
    rw [butterfly_frame (show butterfly a b z p M s = .next t from h)]
    exact ⟨rfl, rfl, rfl, rfl, rfl⟩
  | dbfly j k2 z p M =>
    obtain ⟨s1, s2, h1, h2, rfl⟩ := execDbfly_next h
    rw [butterfly_frame h2, butterfly_frame h1]
    exact ⟨rfl, rfl, rfl, rfl, rfl⟩
  | twgen A j =>
    simp only [exec, execTwgen] at h
    split at h
    · injection h with h
      subst h
      simp
    · cases h

end Sys2Proof.Machine
end

