-- ==== Sys2Proof/Laws/PerInstr.lean ====
section
/-! SUPPORT. Statements made per instruction. The family TableRow: the encoding of an instruction lies in its row of
spec/opcode_table.json, that is, masked with the row's mask it is the row's match. -/

namespace Sys2Proof.Laws.TableRow

/-- The row of an instruction: a command word has the row's fixed bits, an internal operation its select code (30_encoding.md R73,
R74). -/
def Statement (i : Instr) : Prop :=
  match i with
  | .build _ => ∃ w, encode i = .cmd w ∧ w &&& 0x0000FFFF = 0x00000001
  | .xform _ => ∃ w, encode i = .cmd w ∧ w &&& 0x0000FFFF = 0x00000002
  | .release => ∃ w, encode i = .cmd w ∧ w &&& 0xFFFFFFFF = 0x00000003
  | .clrstat => ∃ w, encode i = .cmd w ∧ w &&& 0xFFFFFFFF = 0x00000004
  | .cadd _ _ => ∃ u, encode i = .uop u ∧ u.code &&& 0xF = 0x0
  | .csub _ _ => ∃ u, encode i = .uop u ∧ u.code &&& 0xF = 0x1
  | .cmul _ _ => ∃ u, encode i = .uop u ∧ u.code &&& 0xF = 0x2
  | .crsh _ _ => ∃ u, encode i = .uop u ∧ u.code &&& 0xF = 0x3
  | .twlk _ _ => ∃ u, encode i = .uop u ∧ u.code &&& 0xF = 0x4
  | .brev _ _ => ∃ u, encode i = .uop u ∧ u.code &&& 0xF = 0x5
  | .brpass _ => ∃ u, encode i = .uop u ∧ u.code &&& 0xF = 0x6
  | .pair0 _ => ∃ u, encode i = .uop u ∧ u.code &&& 0xF = 0x7
  | .bfly _ _ _ _ _ => ∃ u, encode i = .uop u ∧ u.code &&& 0xF = 0x8
  | .dbfly _ _ _ _ _ => ∃ u, encode i = .uop u ∧ u.code &&& 0xF = 0x9
  | .twgen _ _ => ∃ u, encode i = .uop u ∧ u.code &&& 0xF = 0xA

theorem cmdWord_low (size : BitVec 16) (opc : BitVec 4) :
    cmdWord size opc &&& 0x0000FFFF = opc.setWidth 32 := by
  ext k hk
  simp only [cmdWord, BitVec.getElem_and, BitVec.getElem_append, BitVec.getElem_setWidth]
  rcases Nat.lt_or_ge k 4 with h4 | h4
  · interval_cases k <;> simp [BitVec.getLsbD, BitVec.getElem_eq_testBit_toNat] <;> exact fun _ => by decide
  · have : opc.getLsbD k = false := BitVec.getLsbD_of_ge _ _ h4
    rw [this]
    interval_cases k <;> simp

theorem build (size : BitVec 16) : Statement (.build size) := ⟨_, rfl, cmdWord_low size 1⟩
theorem xform (size : BitVec 16) : Statement (.xform size) := ⟨_, rfl, cmdWord_low size 2⟩
theorem release : Statement .release := ⟨_, rfl, by decide⟩
theorem clrstat : Statement .clrstat := ⟨_, rfl, by decide⟩
theorem code_and (c : BitVec 4) : c &&& 0xF = c := BitVec.and_allOnes

theorem cadd (a b : ScaledComplex) : Statement (.cadd a b) := ⟨_, rfl, code_and 0x0⟩
theorem csub (a b : ScaledComplex) : Statement (.csub a b) := ⟨_, rfl, code_and 0x1⟩
theorem cmul (a b : ScaledComplex) : Statement (.cmul a b) := ⟨_, rfl, code_and 0x2⟩
theorem crsh (a : ScaledComplex) (sh : Int) : Statement (.crsh a sh) := ⟨_, rfl, code_and 0x3⟩
theorem twlk (z P : Nat) : Statement (.twlk z P) := ⟨_, rfl, code_and 0x4⟩
theorem brev (j N : Nat) : Statement (.brev j N) := ⟨_, rfl, code_and 0x5⟩
theorem brpass (N : Nat) : Statement (.brpass N) := ⟨_, rfl, code_and 0x6⟩
theorem pair0 (i : Nat) : Statement (.pair0 i) := ⟨_, rfl, code_and 0x7⟩
theorem bfly (a b z p M : Nat) : Statement (.bfly a b z p M) := ⟨_, rfl, code_and 0x8⟩
theorem dbfly (i k2 z p M : Nat) : Statement (.dbfly i k2 z p M) := ⟨_, rfl, code_and 0x9⟩
theorem twgen (A i : Nat) : Statement (.twgen A i) := ⟨_, rfl, code_and 0xA⟩

end Sys2Proof.Laws.TableRow
end

