-- ==== Sys2Proof/Laws/Step.lean ====
section
/-! SUPPORT. What a step can do: its three forms, the Host's access, one Engine operation. -/

namespace Sys2Proof.Machine

theorem core_step (s : State) : Sys2Proof.core.step s = step s := rfl

/-- A run of `j + k` steps is a run of `k` steps after a run of `j`. -/
theorem run_add (j k : Nat) (s : State) : run (j + k) s = andThen (run j s) (run k) := by
  induction j generalizing s with
  | zero => simp [run]
  | succ j ih =>
    rw [Nat.succ_add]
    show andThen (step s) (run (j + k)) = andThen (andThen (step s) (run j)) (run k)
    cases step s with
    | next t => exact ih t
    | fault x => rfl
    | refused x => rfl

/-- A step with an operation on the select lines. -/
theorem step_uop {s : State} {u : UopWord} (h : s.uop = some u) : step s = runUop u { atEdge s s.host with uop := none } := by
  simp only [step, h]
  rfl

/-- A step with a port cycle to come. -/
theorem step_cycle {s : State} {c : PortCycle} {rest : List PortCycle} (h : NextCycle s c rest) :
    step s = portEdge c (atEdge s rest) := by
  simp only [step, h.1, h.2]
  rfl

/-- A step of a block that is left alone: one Engine operation when it is busy, else nothing. -/
theorem step_alone {s : State} (h : Alone s) :
    step s = if s.status.busy = true then engineOp (atEdge s []) else .next (atEdge s []) := by
  have he : atEdge s [] = s.nextEdge := by
    rw [atEdge, ← h.1]
    rfl
  simp [step, h.1, h.2, portEdge, quietCycle, hostAccess, he]

/-- A decoded command word is one of the four commands. -/
theorem decodeCmd_cases {w : PortWord} {i : Instr} (h : decodeCmd w = some i) :
    i = .build (sizeField w) ∨ i = .xform (sizeField w) ∨ i = .release ∨ i = .clrstat := by
  unfold decodeCmd at h
  split_ifs at h <;> simp_all

/-- A command answers a next state, always (45_commands.md R180). -/
theorem exec_command_next {w : PortWord} {i : Instr} (h : decodeCmd w = some i) (s : State) : ∃ t, exec i s = .next t := by
  have issued : ∀ check accept, ∃ t, issue check accept s = .next t := by
    intro check accept
    rcases issue_cases check accept s with ⟨-, he⟩ | ⟨-, c, -, he⟩ | ⟨-, -, he⟩ <;> exact ⟨_, he⟩
  rcases decodeCmd_cases h with rfl | rfl | rfl | rfl
  · exact issued _ _
  · exact issued _ _
  · exact issued _ _
  · exact issued (fun _ => none) acknowledge

theorem writeCmd_next (w : PortWord) (s : State) : ∃ t, writeCmd w s = .next t := by
  unfold writeCmd
  split
  · next i hi => exact exec_command_next hi s
  · split <;> exact ⟨_, rfl⟩

/-- The Host's access never stops the block: "there are no wait states and no error response on the port" (10_state.md R22). -/
theorem hostAccess_next (c : PortCycle) (s : State) : ∃ t, hostAccess c s = .next t := by
  unfold hostAccess
  split
  · split
    · unfold hostWrite
      split
      · exact writeCmd_next _ _
      all_goals exact ⟨_, rfl⟩
    · exact ⟨_, rfl⟩
  · exact ⟨_, rfl⟩

/-- While BUSY a write to `CMD` is rejected, whatever the word (45_commands.md R180, 60_exceptions.md R213). -/
theorem writeCmd_busy {s : State} (w : PortWord) (hb : s.status.busy = true) :
    writeCmd w s = .next (reject .busyViolation s) := by
  have issued : ∀ check accept, issue check accept s = .next (reject .busyViolation s) := by
    intro check accept
    simp [issue, hb]
  unfold writeCmd
  split
  · next i hi =>
    rcases decodeCmd_cases hi with rfl | rfl | rfl | rfl
    · exact issued _ _
    · exact issued _ _
    · exact issued _ _
    · exact issued (fun _ => none) acknowledge
  · simp [hb]

/-- What the Host's access can do while BUSY (60_exceptions.md R218): a rejection, a value on the read port, or nothing. -/
theorem hostAccess_busy {s t : State} {c : PortCycle} (hb : s.status.busy = true) (h : hostAccess c s = .next t) :
    t = s ∨ t = reject .busyViolation s ∨ ∃ d, t = { s with rdata := some d } := by
  unfold hostAccess at h
  split at h
  · split at h
    · unfold hostWrite at h
      split at h
      · rw [writeCmd_busy _ hb] at h
        injection h with h
        exact .inr (.inl h.symm)
      · simp only [writeSample, hb, if_true] at h
        injection h with h
        exact .inr (.inl h.symm)
      · simp only [writeSample, hb, if_true] at h
        injection h with h
        exact .inr (.inl h.symm)
      all_goals
        injection h with h
        exact .inl h.symm
    · injection h with h
      exact .inr (.inr ⟨_, h.symm⟩)
  · injection h with h
    exact .inl h.symm

/-- One Engine operation: idle and nothing, or the operation of the phase and then the advance of SEQ. -/
theorem engineOp_eq (s : State) :
    (s.seq.phase = .idle ∧ engineOp s = .next s) ∨
    (s.seq.phase ≠ .idle ∧ ∃ i, nextOperation s.seq = some i ∧
      engineOp s = andThen (exec i s) (fun t => .next (advance s.seq.phase t))) := by
  unfold engineOp nextOperation
  cases h : s.seq.phase <;> simp

end Sys2Proof.Machine
end

