-- ==== Sys2Proof/Tests/Slice0.lean ====
section
/-! SUPPORT. Tests against the vectors of spec/95_test_vectors.md (V<n>) and the encodings of spec/30_encoding.md, the smoke test of
WellFormed, and a witness for the hypotheses of every obligation that has any. -/

namespace Sys2Proof.Tests

set_option Elab.async false

open Sys2Proof
open Sys2Proof.Machine

/-! Small states and ways to look at an answer. -/

/-- The words of a list at the indexes 0, 1, 2, … -/
def words (l : List Int) : Memory := (List.range l.length).zip l

/-- The flags of an idle block with a valid table. -/
def idleValid : Status := { busy := false, done := false, err := false, tableValid := true, errCode := 0 }

/-- An idle block with a valid table of base size `A` and these samples. -/
def ready (A : Nat) (re im : List Int) : State :=
  { State.reset with
    re := words re, im := words im, tw := words ((List.range (depth A)).map (twiddleEntry A)), tableA := A, status := idleValid }

/-- The same block with `XFORM A` accepted. -/
def running (A : Nat) (re im : List Int) : State := acceptXform A (ready A re im)

/-- The same block at the last dual butterfly of `XFORM 4`. -/
def lastOperation : State :=
  { running 4 [4, -2, 6, -2] [0, 0, 0, 0] with seq := { phase := .general, n := 4, m := 2, g := 0, k := 1, p := 2, i := 0, cnt := 0, z := 0 } }

/-- A block whose error report stands. -/
def failed : State := { State.reset with status := { State.reset.status with err := true, errCode := 3 } }

/-- A block with coming cycles. -/
def withHost (s : State) (l : List PortCycle) : State := { s with host := l }

/-- A function of the next state, if there is one. -/
def look {α : Type} (f : State → α) : Answer → Option α
  | .next t => some (f t)
  | .fault _ => none
  | .refused _ => none

/-- The fault, if there is one. -/
def faultOf : Answer → Option Fault
  | .fault x => some x
  | _ => none

/-- The refusal, if there is one. -/
def refusalOf : Answer → Option Refusal
  | .refused x => some x
  | _ => none

/-- The first `n` words of a space. -/
def firstWords (sp : Space) (n : Nat) (s : State) : List Int := (List.range n).map (load s sp)

/-! ## Decoding: words written out from 30_encoding.md R71 to R74 -/

theorem test_decode_build : decodeTableWord 32 0b0000000000001000_000000000000_0001 = some (.build 8) := by decide
theorem test_decode_xform : decodeTableWord 32 0b0000010000000000_000000000000_0010 = some (.xform 1024) := by decide
theorem test_decode_release : decodeTableWord 32 0b0000000000000000_000000000000_0011 = some .release := by decide
theorem test_decode_clrstat : decodeTableWord 32 0b0000000000000000_000000000000_0100 = some .clrstat := by decide
theorem test_decode_cadd : decodeTableWord 8 0b0000 = some (.cadd .zero .zero) := by decide
theorem test_decode_csub : decodeTableWord 8 0b0001 = some (.csub .zero .zero) := by decide
theorem test_decode_cmul : decodeTableWord 8 0b0010 = some (.cmul .zero .zero) := by decide
theorem test_decode_crsh : decodeTableWord 8 0b0011 = some (.crsh .zero 0) := by decide
theorem test_decode_twlk : decodeTableWord 8 0b0100 = some (.twlk 0 0) := by decide
theorem test_decode_brev : decodeTableWord 8 0b0101 = some (.brev 0 0) := by decide
theorem test_decode_brpass : decodeTableWord 8 0b0110 = some (.brpass 0) := by decide
theorem test_decode_pair0 : decodeTableWord 8 0b0111 = some (.pair0 0) := by decide
theorem test_decode_bfly : decodeTableWord 8 0b1000 = some (.bfly 0 0 0 0 0) := by decide
theorem test_decode_dbfly : decodeTableWord 8 0b1001 = some (.dbfly 0 0 0 0 0) := by decide
theorem test_decode_twgen : decodeTableWord 8 0b1010 = some (.twgen 0 0) := by decide
/-- R74, R76: codes 0xB to 0xF name no operation. -/
theorem test_decode_unused_codes : [0xB, 0xC, 0xD, 0xE, 0xF, 0x10].map (decodeTableWord 8) = List.replicate 6 none := by decide
/-- V133 to V140. -/
theorem test_decode_illegal_words :
    [0x00000000, 0x00000005, 0x0000000F, 0x00080012, 0x00088001, 0x00010003, 0x00080004, 0xFFFFFFFF].map (decodeTableWord 32)
      = List.replicate 8 none := by decide
/-- An operand line of every internal operation reaches the operation. -/
theorem test_decode_operands :
    decodeUop ⟨0b1001, { OperandLines.idle with x := 2, y := 4, z := 2, p := 4, m := 3 }⟩ = some (.dbfly 2 4 2 4 3) ∧
    decodeUop ⟨0b0011, { OperandLines.idle with a := ⟨-30, -66⟩, sh := 3 }⟩ = some (.crsh ⟨-30, -66⟩ 3) := by decide

/-! ## WellFormed: every check refuses an ill-formed term -/

/-- A well-formed term of every kind is accepted. -/
theorem test_wf_accepts :
    [Instr.build 6, .xform 0, .release, .clrstat, .cadd ⟨1, 2⟩ ⟨3, 4⟩, .csub ⟨1, 2⟩ ⟨3, 4⟩, .cmul ⟨1, 2⟩ ⟨3, 4⟩, .crsh ⟨1, 2⟩ 63,
      .twlk 3 8, .brev 7 8, .brpass 1024, .pair0 1022, .bfly 1 5 1 4 3, .dbfly 2 4 2 4 3, .twgen 8 9].all
      (WellFormed .default) = true := by decide
/-- 40_scaled_complex.md R90: a part outside ACC_W bits. -/
theorem test_wf_refuses_wide_parts :
    [Instr.cadd ⟨2 ^ 63, 0⟩ .zero, .cadd .zero ⟨0, 2 ^ 63⟩, .csub ⟨0, -2 ^ 63 - 1⟩ .zero, .csub .zero ⟨2 ^ 63, 0⟩,
      .cmul ⟨2 ^ 63, 0⟩ .zero, .cmul .zero ⟨2 ^ 63, 0⟩, .crsh ⟨0, 2 ^ 63⟩ 0].any (WellFormed .default) = false := by decide
/-- R101: a negative shift; R96: a shift of `ACC_W` or more. -/
theorem test_wf_refuses_shifts : [Instr.crsh .zero (-1), .crsh .zero 64].any (WellFormed .default) = false := by decide
/-- 41_twiddle_rom.md R116. -/
theorem test_wf_refuses_lookups : [Instr.twlk 0 2, .twlk 0 6, .twlk 0 2048, .twlk 8 8].any (WellFormed .default) = false := by decide
/-- 43_bit_reversal.md R135, R137. -/
theorem test_wf_refuses_sizes :
    [Instr.brev 0 6, .brev 8 8, .brpass 0, .brpass 1, .brpass 2048].any (WellFormed .default) = false := by decide
/-- 44_butterfly_engine.md R153. -/
theorem test_wf_refuses_pairs : [Instr.pair0 1, .pair0 1024].any (WellFormed .default) = false := by decide
/-- 44_butterfly_engine.md R156. -/
theorem test_wf_refuses_butterflies :
    [Instr.bfly 0 1024 0 1024 3, .bfly 0 3 0 3 3, .bfly 0 4 4 4 3, .bfly 0 5 0 4 3, .bfly 1020 1024 0 4 3, .bfly 0 4 0 4 0,
      .bfly 0 4 0 4 11].any (WellFormed .default) = false := by decide
/-- 44_butterfly_engine.md R158. -/
theorem test_wf_refuses_dual_butterflies :
    [Instr.dbfly 0 1024 0 1024 3, .dbfly 0 3 0 3 3, .dbfly 0 4 4 4 3, .dbfly 0 4 1 4 3, .dbfly 1 4 0 4 3, .dbfly 0 2 0 4 3,
      .dbfly 1020 4 0 4 3, .dbfly 0 4 0 4 0, .dbfly 0 4 0 4 11].any (WellFormed .default) = false := by decide
/-- 41_twiddle_rom.md R115. -/
theorem test_wf_refuses_table_writes : [Instr.twgen 6 0, .twgen 8 10].any (WellFormed .default) = false := by decide

/-! ## One step of each instruction -/

/-- V120, V156: `BUILD 8` from reset, through the port. -/
theorem test_build_accepted :
    look (fun t => (t.status.word, t.tableA, t.seq.phase, t.seq.n)) (step (State.reset.withFetchWord 32 0x00080001))
      = some (0x01, 0, .building, 8) := by decide
/-- V123 to V128, V170: sizes that are rejected; an old table stays. -/
theorem test_build_bad_sizes :
    ([2048, 1, 0, 6, 65535, 32768].map fun A => look (fun t => t.status.word) (exec (.build A) State.reset))
      = List.replicate 6 (some 0x24) ∧
    look (fun t => (t.status.word, t.tableA)) (exec (.build 3) (ready 8 [] [])) = some (0x2C, 8) := by decide +kernel
/-- V160: `XFORM 8` accepted. -/
theorem test_xform_accepted :
    look (fun t => (t.status.word, t.tableA, t.seq.phase, t.seq.n, t.seq.m)) (exec (.xform 8) (ready 8 [] []))
      = some (0x09, 8, .permute, 8, 3) := by decide +kernel
/-- V129, V130, V157, V158 (here with `DONE = 0` before): the causes in their order. -/
theorem test_xform_rejected :
    look (fun t => t.status.word) (exec (.xform 8) State.reset) = some 0x34 ∧
    look (fun t => t.status.word) (exec (.xform 6) State.reset) = some 0x24 ∧
    look (fun t => t.status.word) (exec (.xform 4) (ready 8 [] [])) = some 0x4C ∧
    look (fun t => t.status.word) (exec (.xform 16) (ready 8 [] [])) = some 0x4C := by decide +kernel
/-- V167, V168. -/
theorem test_release :
    look (fun t => (t.status.word, t.tableA)) (exec .release (ready 8 [] [])) = some (0x00, 0) ∧
    look (fun t => t.status.word) (exec .release State.reset) = some 0x34 := by decide +kernel
/-- V153, V163. -/
theorem test_clrstat :
    look (fun t => t.status.word) (exec .clrstat failed) = some 0x00 ∧
    look (fun t => t.status.word) (exec .clrstat (running 8 [] [])) = some 0x5D := by decide +kernel
/-- V1, V3. -/
theorem test_cadd :
    look (fun t => t.result) (exec (.cadd ⟨2, -2⟩ ⟨0, -3⟩) State.reset) = some (.complex ⟨2, -5⟩) ∧
    look (fun t => t.result) (exec (.cadd ⟨2 ^ 31 - 1, -2 ^ 31⟩ ⟨1, -1⟩) State.reset) = some (.complex ⟨2 ^ 31, -2 ^ 31 - 1⟩) := by
  decide
/-- V4, V6. -/
theorem test_csub :
    look (fun t => t.result) (exec (.csub ⟨2, -2⟩ ⟨0, -3⟩) State.reset) = some (.complex ⟨2, 1⟩) ∧
    look (fun t => t.result) (exec (.csub ⟨-2 ^ 31, 0⟩ ⟨1, 0⟩) State.reset) = some (.complex ⟨-2 ^ 31 - 1, 0⟩) := by decide
/-- V7, V9. -/
theorem test_cmul :
    look (fun t => t.result) (exec (.cmul ⟨1, 2⟩ ⟨3, 4⟩) State.reset) = some (.complex ⟨-5, 10⟩) ∧
    look (fun t => t.result) (exec (.cmul ⟨3, -8⟩ ⟨6, -6⟩) State.reset) = some (.complex ⟨-30, -66⟩) := by decide
/-- V19, V20, V22, V26, V27. -/
theorem test_crsh :
    ([(⟨-30, -66⟩, 3), (⟨30, -66⟩, 3), (⟨-1, 1⟩, 10), (⟨2 ^ 62, -2 ^ 62⟩, 63)].map
      fun x : ScaledComplex × Int => look (fun t => t.result) (exec (.crsh x.1 x.2) State.reset))
      = [some (.complex ⟨-4, -9⟩), some (.complex ⟨3, -9⟩), some (.complex ⟨-1, 0⟩), some (.complex ⟨0, -1⟩)] ∧
    refusalOf (exec (.crsh ⟨5, 5⟩ (-1)) State.reset) = some .negativeShift := by decide
/-- V36, V38, V40, V42, V43. -/
theorem test_twlk :
    look (fun t => t.result) (exec (.twlk 1 4) (ready 8 [] [])) = some (.complex ⟨0, -8⟩) ∧
    look (fun t => t.result) (exec (.twlk 1 8) (ready 8 [] [])) = some (.complex ⟨6, -6⟩) ∧
    look (fun t => t.result) (exec (.twlk 3 8) (ready 8 [] [])) = some (.complex ⟨-6, -6⟩) ∧
    look (fun t => t.result) (exec (.twlk 3 8) (ready 16 [] [])) = some (.complex ⟨-11, -11⟩) ∧
    look (fun t => t.result) (exec (.twlk 7 16) (ready 16 [] [])) = some (.complex ⟨-15, -6⟩) := by decide +kernel
/-- V49; 93_implementation_defined.md U4: `P = 2`, also in a butterfly with `p = 1`. -/
theorem test_twlk_outside :
    refusalOf (exec (.twlk 0 2) (ready 2 [] [])) = some .lookupOutsideContract ∧
    refusalOf (exec (.twlk 1 2) (ready 8 [] [])) = some .lookupOutsideContract ∧
    refusalOf (exec (.bfly 0 2 0 1 3) (ready 8 [1, 2, 3] [])) = some .lookupOutsideContract := by decide +kernel
/-- V51 to V54. -/
theorem test_brev :
    ([(1, 4), (3, 8), (6, 8), (11, 16), (341, 1024)].map
      fun x : Nat × Nat => look (fun t => t.result) (exec (.brev x.1 x.2) State.reset))
      = [some (.index 2), some (.index 6), some (.index 3), some (.index 13), some (.index 682)] := by decide +kernel
/-- V57, V60. -/
theorem test_brpass :
    look (firstWords .re 8) (exec (.brpass 8) (ready 8 [1, 2, 3, 4, 5, 6, 7, 8] [])) = some [1, 5, 3, 7, 2, 6, 4, 8] ∧
    look (fun t => (firstWords .re 6 t, firstWords .im 4 t)) (exec (.brpass 4) (ready 8 [1, 2, 3, 4, 9, 9] [5, 6, 7, 8]))
      = some ([1, 3, 2, 4, 9, 9], [5, 6, 7, 8]) := by decide +kernel
/-- V70, V74, V76. -/
theorem test_pair0 :
    look (firstWords .re 2) (exec (.pair0 0) (ready 8 [3, 5] [])) = some [8, -2] ∧
    look (firstWords .re 2) (exec (.pair0 0) (ready 8 [-2 ^ 31, 0] [])) = some [-2 ^ 31, -2 ^ 31] ∧
    faultOf (exec (.pair0 0) (ready 8 [2 ^ 30, 2 ^ 30] [])) = some (.overflow .re 0 (2 ^ 31)) := by decide +kernel
/-- V75: the sum fits, the difference does not. -/
theorem test_pair0_second_overflow :
    faultOf (exec (.pair0 0) (ready 8 [-2 ^ 31, 1] [])) = some (.overflow .re 1 (-2 ^ 31 - 1)) := by decide +kernel
/-- V85. -/
theorem test_bfly_V85 :
    look (fun t => (loadTap t 1, loadTap t 5, t.opnd.t))
      (exec (.bfly 1 5 1 4 3) (ready 8 [0, 4, 0, 0, 0, 3, 0, 0] [0, 1, 0, 0, 0, -8, 0, 0]))
      = some (⟨0, -8⟩, ⟨8, 10⟩, ⟨-4, -9⟩) := by decide +kernel
/-- V87. -/
theorem test_bfly_V87 :
    look (fun t => (loadTap t 3, loadTap t 7))
      (exec (.bfly 3 7 3 4 3) (ready 8 [0, 0, 0, 4, 0, 0, 0, 3] [0, 0, 0, -1, 0, 0, 0, 8])) = some (⟨7, -10⟩, ⟨1, 8⟩) := by
  decide +kernel
/-- V91. -/
theorem test_dbfly_V91 :
    look (fun t => (t.result, loadTap t 0, loadTap t 4, loadTap t 1, loadTap t 5))
      (exec (.dbfly 0 4 0 4 3) (ready 8 [-9, 4, -11, 4, 13, 3, 1, 3] [0, 1, 0, -1, 0, -8, 0, 8]))
      = some (.index 2, ⟨4, 0⟩, ⟨-22, 0⟩, ⟨0, -8⟩, ⟨8, 10⟩) := by decide +kernel
/-- V92: `z` wraps. -/
theorem test_dbfly_V92 :
    look (fun t => (t.result, loadTap t 2, loadTap t 6, loadTap t 3, loadTap t 7))
      (exec (.dbfly 2 4 2 4 3) (ready 8 [-9, 4, -11, 4, 13, 3, 1, 3] [0, 1, 0, -1, 0, -8, 0, 8]))
      = some (.index 0, ⟨-11, -1⟩, ⟨-11, 1⟩, ⟨7, -10⟩, ⟨1, 8⟩) := by decide +kernel
/-- V32, V33, V34: entries of the table. -/
theorem test_twgen :
    look (fun t => load t .tw 3) (exec (.twgen 8 3) State.reset) = some (-6) ∧
    look (fun t => load t .tw 1279) (exec (.twgen 1024 1279) State.reset) = some 6 ∧
    (List.range 20).map (twiddleEntry 16) =
      [16, 15, 11, 6, 0, -6, -11, -15, -16, -15, -11, -6, 0, 6, 11, 15, 16, 15, 11, 6] := by decide +kernel

/-- Operands for which the spec states no entry or no index: the operation runs, and leaves the rest as it was (log 12, 26). -/
theorem test_free_operands :
    look (fun t => (t.re, t.im, t.tableA)) (exec (.twgen 6 3) (ready 8 [1] [2])) = some ([(0, 1)], [(0, 2)], 8) ∧
    look (fun t => (t.re, t.im, t.tableA)) (exec (.brpass 0) (ready 8 [1] [2])) = some ([(0, 1)], [(0, 2)], 8) := by
  decide +kernel

/-! ## The port -/

/-- V180, V192 with `SAMPLE_W = 16`. -/
theorem test_write_sample :
    look (hostRead 0x0800) (hostWrite 0x0800 0xFFFFFFFD State.reset) = some 0xFFFFFFFD ∧
    look (hostRead 0x0800) (hostWrite 0x0800 0x00018000 { State.reset with cfg := ⟨10, 16, 64⟩ }) = some 0xFFFF8000 := by
  decide +kernel
/-- V182, V191: offsets with no word. -/
theorem test_holes :
    hostRead 0x0C00 (ready 8 [] []) = 0 ∧ hostRead 0x0003 (ready 8 [] []) = 0 ∧ hostRead 0x07FF (ready 8 [] []) = 0 ∧
    hostRead 0x0000 (ready 8 [] []) = 0 ∧ look (fun t => t.re) (hostWrite 0x0C00 7 State.reset) = some [] := by decide +kernel
/-- V184, V185, V186, V188. -/
theorem test_read_table :
    [0x1801, 0x1803, 0x1809, 0x180A].map (fun x => hostRead x (ready 8 [] [])) = [6, 0xFFFFFFFA, 6, 0] ∧
    hostRead 0x1800 State.reset = 0 := by decide +kernel
/-- V161, V162. -/
theorem test_busy_violation :
    look (fun t => (t.status.word, t.re)) (hostWrite 0x0800 5 (running 8 [] [])) = some (0x5D, []) ∧
    look (fun t => t.status.word) (hostWrite 0x0000 0 (running 8 [] [])) = some 0x5D := by decide +kernel
/-- R213: a write at the edge at which the command completes is still judged against `BUSY = 1`. -/
theorem test_completing_edge :
    look (fun t => (t.status.word, loadTap t 0, loadTap t 1))
      (step (withHost lastOperation [writeCycle 0x0800 5 true])) = some (0x5E, ⟨10, 0⟩, ⟨-2, 2⟩) := by decide +kernel
/-- V195. -/
theorem test_reset_edge :
    look (fun t => (t.status.word, t.rdata, t.tableA, t.re))
      (step (withHost (running 8 [1] []) [{ readCycle 0x0001 true with rst := true }])) = some (0, some 0, 0, []) := by
  decide +kernel

/-! ## Witnesses: concrete inputs that meet all hypotheses of an obligation together -/

theorem witness_IllegalWordsAreRejected :
    decodeCmd 0x00080012 = none ∧ State.reset.status.busy = false ∧ decodeCmd 0xFFFFFFFF = none ∧ failed.status.busy = false := by
  decide
theorem witness_CommandWordsDecodeAsTheFieldsSay : encode (.xform 0xFFFF) = .cmd 0xFFFF0002 := by decide
theorem witness_DecodingInvertsEncoding : decodeCmd 0xFFFF0001 = some (.build 0xFFFF) := by decide

theorem witness_StepRunsTheWrittenCommand :
    let s := withHost (ready 8 [] []) [writeCycle 0 0x00080002 true]
    NextCycle s (writeCycle 0 0x00080002 true) [] ∧ Writes s (writeCycle 0 0x00080002 true) .cmd ∧
      decodeCmd (writeCycle 0 0x00080002 true).wdata = some (.xform 8) ∧ s.status.busy = false := by decide +kernel
theorem witness_StepRunsTheWrittenCommand_busy :
    let s := withHost lastOperation [writeCycle 0 0x00000004 false]
    NextCycle s (writeCycle 0 0x00000004 false) [] ∧ Writes s (writeCycle 0 0x00000004 false) .cmd ∧
      decodeCmd (writeCycle 0 0x00000004 false).wdata = some .clrstat ∧ s.status.busy = true ∧
      (writeCycle 0 0x00000004 false).engine = false := by decide +kernel

theorem witness_StepRunsTheSelectedOperation :
    (State.reset.withFetchWord 8 0xA).uop = some ⟨0xA, OperandLines.idle⟩ ∧
    decodeUop ⟨0xA, OperandLines.idle⟩ = some (.twgen 0 0) ∧
    (State.reset.withFetchWord 8 0xF).uop = some ⟨0xF, OperandLines.idle⟩ ∧ decodeUop ⟨0xF, OperandLines.idle⟩ = none := by decide
theorem witness_FetchWordIsRunNext :
    decodeTableWord 32 0x00080001 = some (.build 8) ∧ decodeTableWord 8 0x7 = some (.pair0 0) := by decide

theorem witness_ResetEdgeAbandonsEverything :
    let c := { readCycle 1 true with rst := true }
    NextCycle (withHost lastOperation [c]) c [] ∧ c.rst = true ∧ c.sel = true ∧ c.we = false := by decide +kernel

/-- Every clause of BuildIsIssued: busy, a bad size, the smallest and the largest size. -/
theorem witness_BuildIsIssued :
    lastOperation.status.busy = true ∧ State.reset.status.busy = false ∧
    ¬(∃ m, 1 ≤ m ∧ m ≤ State.reset.cfg.log2Amax ∧ (6 : BitVec 16).toNat = 2 ^ m) ∧
    (1 ≤ 1 ∧ 1 ≤ State.reset.cfg.log2Amax ∧ (2 : BitVec 16).toNat = 2 ^ 1) ∧
    (1 ≤ 10 ∧ 10 ≤ State.reset.cfg.log2Amax ∧ (1024 : BitVec 16).toNat = 2 ^ 10) := by
  refine ⟨rfl, rfl, ?_, by decide, by decide⟩
  rintro ⟨m, h1, h2, h3⟩
  have h2 : m ≤ 10 := h2
  interval_cases m <;> exact absurd h3 (by decide)

/-- Every clause of XformIsIssued. -/
theorem witness_XformIsIssued :
    lastOperation.status.busy = true ∧ (ready 8 [] []).status.busy = false ∧ (8 : BitVec 16).toNat = 2 ^ 3 ∧
    3 ≤ (ready 8 [] []).cfg.log2Amax ∧ State.reset.status.tableValid = false ∧ (ready 8 [] []).status.tableValid = true ∧
    (ready 8 [] []).tableA = (8 : BitVec 16).toNat ∧ (ready 8 [] []).tableA ≠ (4 : BitVec 16).toNat := by decide +kernel

theorem witness_ReleaseAndClrstatAreIssued :
    lastOperation.status.busy = true ∧ State.reset.status.busy = false ∧ State.reset.status.tableValid = false ∧
    (ready 8 [] []).status.busy = false ∧ (ready 8 [] []).status.tableValid = true := by decide +kernel

/-- A standing error and a rejected command: the report stays. -/
theorem witness_ErrorReportIsSticky :
    let s := withHost failed [writeCycle 0 0x00060001 true]
    s.status.err = true ∧ (look (fun t => t.status.errCode) (step s) = some 3) ∧
    (∀ c rest, NextCycle s c rest → c.rst = false ∧ ¬(Writes s c .cmd ∧ c.wdata = 4 ∧ s.status.busy = false)) := by
  refine ⟨rfl, by decide, ?_⟩
  rintro c rest ⟨-, h⟩
  obtain ⟨rfl, rfl⟩ : writeCycle 0 0x00060001 true = c ∧ [] = rest := by simpa [withHost] using h
  decide

theorem witness_ShiftFillsWithTheSign : 0 < 64 ∧ fits 64 (-2 ^ 63) ∧ fits 64 (2 ^ 63 - 1) := by decide

theorem witness_DatapathWidthSuffices :
    Params.default.Legal ∧ 2 ≤ 10 ∧ 10 ≤ Params.default.log2Amax ∧ fits Params.default.sampleW (-2 ^ 31) ∧
    Params.Legal ⟨15, 32, 49⟩ ∧ Params.Legal ⟨2, 4, 8⟩ := by decide

/-- A table that holds its entries; the largest index the lookup can read (V48). -/
theorem witness_LookupReturnsTheTwiddlePair :
    (ready 4 [] []).status.tableValid = true ∧ (ready 4 [] []).tableA = 2 ^ 2 ∧
    TableHolds (ready 4 [] []).tw (ready 4 [] []).tableA (depth (ready 4 [] []).tableA) ∧ isPow2 4 = true ∧
    4 ≤ (ready 4 [] []).tableA ∧ 4 ≤ 4 ∧ 3 < 4 := by decide +kernel

/-- Each way to leave the contract: no table, `A = 2`, no power of two, `P = 2`, `P > A`, `z = P`. -/
theorem witness_LookupOutsideContractIsRefused :
    ¬ LookupDefined State.reset 0 4 ∧ ¬ LookupDefined (ready 2 [] []) 0 2 ∧ ¬ LookupDefined (ready 8 [] []) 0 6 ∧
    ¬ LookupDefined (ready 8 [] []) 0 2 ∧ ¬ LookupDefined (ready 8 [] []) 0 16 ∧ ¬ LookupDefined (ready 8 [] []) 8 8 ∧ 8 = 2 * 4 ∧
    1023 < (ready 8 [] []).cfg.amax := by decide +kernel

theorem witness_TableEntriesStayInRange : Params.default.Legal ∧ 1 ≤ 1 ∧ 1 ≤ 10 ∧ 10 ≤ Params.default.log2Amax := by decide
theorem witness_TableEntriesAreSymmetric : 2 ≤ 2 ∧ 2 ≤ 15 ∧ 0 ≤ 2 ^ 2 ∧ 2 ^ 2 / 4 < 2 ^ 2 / 2 ∧ 2 ^ 2 / 2 < 3 ∧ 3 < 2 ^ 2 := by decide
theorem witness_TableEntriesAreRoundedCosines : 1 ≤ 1 ∧ 1 ≤ 12 ∧ 12 ≤ 12 := by decide

theorem witness_TableEntryIsGenerated :
    isSize State.reset.cfg 2 = true ∧ isSize State.reset.cfg 1024 = true ∧ isSize State.reset.cfg 0 = false ∧
    1279 < depth State.reset.cfg.amax ∧ State.reset.cfg.Legal := by decide +kernel

theorem witness_BitReversalMirrorsTheBits :
    1 ≤ 1 ∧ 10 ≤ State.reset.cfg.log2Amax ∧ 1023 < 2 ^ 10 ∧ 0 < 2 ^ 1 := by decide
theorem witness_BitReversalIsAnInvolution : 1 ≤ 1 ∧ 1 < 2 ^ 1 ∧ (1 = 0 ∨ 1 = bitReverse 1 2) := by decide
theorem witness_ReorderPassPermutesRe : isSize State.reset.cfg 2 = true ∧ isSize State.reset.cfg 1024 = true := by decide +kernel

/-- Each clause: the last pair of the memory, both overflows (V74, V75, V76). -/
theorem witness_PairIsCombined :
    1022 + 1 < State.reset.cfg.amax ∧
    (fits 32 (load (ready 8 [-2 ^ 31, 0] []) .re 0 + load (ready 8 [-2 ^ 31, 0] []) .re 1) ∧
      fits 32 (load (ready 8 [-2 ^ 31, 0] []) .re 0 - load (ready 8 [-2 ^ 31, 0] []) .re 1)) ∧
    ¬ fits 32 (load (ready 8 [2 ^ 30, 2 ^ 30] []) .re 0 + load (ready 8 [2 ^ 30, 2 ^ 30] []) .re 1) ∧
    (fits 32 (load (ready 8 [-2 ^ 31, 1] []) .re 0 + load (ready 8 [-2 ^ 31, 1] []) .re 1) ∧
      ¬ fits 32 (load (ready 8 [-2 ^ 31, 1] []) .re 0 - load (ready 8 [-2 ^ 31, 1] []) .re 1)) := by decide +kernel

/-- V85. -/
theorem witness_ButterflyCombinesItsTaps :
    let s := ready 8 [0, 4, 0, 0, 0, 3, 0, 0] [0, 1, 0, 0, 0, -8, 0, 0]
    let c := load s .tw (s.tableA / (2 * 4) * 1)
    let q := load s .tw (s.tableA / (2 * 4) * 1 + s.tableA / 4)
    let tre := (load s .re 5 * c - load s .im 5 * q) / ((2 ^ 3 : Nat) : Int)
    let tim := (load s .re 5 * q + load s .im 5 * c) / ((2 ^ 3 : Nat) : Int)
    1 ≤ 4 ∧ 1 + 4 < s.cfg.amax ∧ s.status.tableValid = true ∧ 4 ≤ s.tableA ∧ isPow2 (2 * 4) = true ∧ 2 ≤ 4 ∧ 2 * 4 ≤ s.tableA ∧ 1 < 2 * 4 ∧
      fits s.cfg.sampleW (load s .re 1 + tre) ∧ fits s.cfg.sampleW (load s .im 1 + tim) ∧
      fits s.cfg.sampleW (load s .re 1 - tre) ∧ fits s.cfg.sampleW (load s .im 1 - tim) := by decide +kernel

/-- Each of the four stores in turn is the first that does not fit. -/
theorem witness_ButterflyOverflowIsAFault :
    let w : ScaledComplex := ⟨8, 0⟩
    let M := 2 ^ 31 - 1
    let s1 := ready 8 [M, 0, 1, 0] [0, 0, 0, 0]
    let s2 := ready 8 [0, 0, 0, 0] [M, 0, 1, 0]
    let s3 := ready 8 [M, 0, -1, 0] [0, 0, 0, 0]
    let s4 := ready 8 [0, 0, 0, 0] [M, 0, -1, 0]
    (∀ s ∈ [s1, s2, s3, s4], 0 + 2 < s.cfg.amax ∧ LookupDefined s 0 (2 * 2) ∧ lookup s 0 (2 * 2) = some w) ∧
    ¬ fits 32 (cadd (loadTap s1 0) (crsh (cmul (loadTap s1 2) w) 3)).re ∧
    (fits 32 (cadd (loadTap s2 0) (crsh (cmul (loadTap s2 2) w) 3)).re ∧
      ¬ fits 32 (cadd (loadTap s2 0) (crsh (cmul (loadTap s2 2) w) 3)).im) ∧
    (fits 32 (cadd (loadTap s3 0) (crsh (cmul (loadTap s3 2) w) 3)).re ∧
      fits 32 (cadd (loadTap s3 0) (crsh (cmul (loadTap s3 2) w) 3)).im ∧
      ¬ fits 32 (csub (loadTap s3 0) (crsh (cmul (loadTap s3 2) w) 3)).re) ∧
    (fits 32 (cadd (loadTap s4 0) (crsh (cmul (loadTap s4 2) w) 3)).re ∧
      fits 32 (cadd (loadTap s4 0) (crsh (cmul (loadTap s4 2) w) 3)).im ∧
      fits 32 (csub (loadTap s4 0) (crsh (cmul (loadTap s4 2) w) 3)).re ∧
      ¬ fits 32 (csub (loadTap s4 0) (crsh (cmul (loadTap s4 2) w) 3)).im) := by decide +kernel

/-- V91. -/
theorem witness_DualButterflyCombinesTwoPairs :
    let s := ready 8 [-9, 4, -11, 4, 13, 3, 1, 3] [0, 1, 0, -1, 0, -8, 0, 8]
    let w0 : ScaledComplex := ⟨8, 0⟩
    let w1 : ScaledComplex := ⟨6, -6⟩
    let t0 := crsh (cmul (loadTap s 4) w0) 3
    let t1 := crsh (cmul (loadTap s 5) w1) 3
    2 ≤ 4 ∧ 0 + 1 + 4 < s.cfg.amax ∧ s.status.tableValid = true ∧ 4 ≤ s.tableA ∧ isPow2 (2 * 4) = true ∧ 2 ≤ 4 ∧ 2 * 4 ≤ s.tableA ∧ 0 < 4 ∧
      lookup s 0 (2 * 4) = some w0 ∧ lookup s 1 (2 * 4) = some w1 ∧
      (∀ x ∈ [cadd (loadTap s 0) t0, csub (loadTap s 0) t0, cadd (loadTap s 1) t1, csub (loadTap s 1) t1],
        fits s.cfg.sampleW x.re ∧ fits s.cfg.sampleW x.im) := by decide +kernel

theorem witness_DualButterflyLanesAreIndependent :
    ∃ t, 2 ≤ 4 ∧ exec (.dbfly 0 4 0 4 3) (ready 8 [-9, 4, -11, 4, 13, 3, 1, 3] [0, 1, 0, -1, 0, -8, 0, 8]) = .next t := by
  have h := test_dbfly_V91
  revert h
  cases exec (.dbfly 0 4 0 4 3) (ready 8 [-9, 4, -11, 4, 13, 3, 1, 3] [0, 1, 0, -1, 0, -8, 0, 8]) with
  | next t => exact fun _ => ⟨t, by decide, rfl⟩
  | fault x => exact fun h => by simp [look] at h
  | refused x => exact fun h => by simp [look] at h

theorem witness_OperandsOutsideTheBlockAreRefused :
    State.reset.cfg.amax ≤ 1023 + 1 ∧ State.reset.cfg.amax ≤ 1024 ∧ 1023 + 0 < State.reset.cfg.amax ∧
    ¬ LookupDefined State.reset 0 (2 * 4) ∧ depth State.reset.cfg.amax ≤ 1280 := by
  decide +kernel

/-! The invariant holds in the states below. -/

theorem inv_ready (A : Nat) (re im : List Int)
    (h : MemoryOk .default .re (words re) ∧ MemoryOk .default .im (words im) ∧ MemoryOk .default .tw (ready A re im).tw ∧
      isSize .default A = true ∧ A ≠ 0 ∧ TableHolds (ready A re im).tw A (depth A)) : Inv (ready A re im) := by
  obtain ⟨hr, hi, ht, hA, h0, hh⟩ := h
  refine ⟨(by decide : Params.default.Legal), hr, hi, ht, (by decide : FlagsOk { State.reset with status := idleValid }), ⟨?_, ?_⟩,
    fun _ => hh, ⟨nofun, nofun, nofun, nofun⟩, (by decide : SeqFits State.reset), (by decide : OperandsOk State.reset), rfl⟩
  · exact ⟨fun _ => hA, fun _ => rfl⟩
  · exact ⟨(fun h => nomatch h), fun h => absurd h h0⟩

theorem inv_ready2 : Inv (ready 2 [3, 5] [0, 0]) := inv_ready _ _ _ (by decide +kernel)
theorem inv_ready4 : Inv (ready 4 [1, 2, 3, 4] [0, 0, 0, 0]) := inv_ready _ _ _ (by decide +kernel)
theorem inv_ready4_large : Inv (ready 4 [2 ^ 29, 2 ^ 29, 2 ^ 29, 2 ^ 29] [0, 0, 0, 0]) := inv_ready _ _ _ (by decide +kernel)
theorem inv_ready8 : Inv (ready 8 [-3, 5, 0, 7, -7, 2, 1, -1] [0, 0, 0, 0, 0, 0, 0, 0]) := inv_ready _ _ _ (by decide +kernel)
theorem inv_ready8_impulse : Inv (ready 8 [100, 0, 0, 0, 0, 0, 0, 0] [0, 0, 0, 0, 0, 0, 0, 0]) := inv_ready _ _ _ (by decide +kernel)
theorem inv_ready8_constant : Inv (ready 8 [7, 7, 7, 7, 7, 7, 7, 7] [0, 0, 0, 0, 0, 0, 0, 0]) := inv_ready _ _ _ (by decide +kernel)

/-- A state inside the last stage of a transform. -/
theorem inv_lastOperation : Inv lastOperation := by
  refine ⟨by decide, by decide +kernel, by decide +kernel, by decide +kernel, by decide +kernel, by decide +kernel,
    by decide +kernel, ?_, by decide +kernel, by decide +kernel, rfl⟩
  exact ⟨by decide, by decide, by decide, by decide +kernel⟩

/-- The invariant does not look at the Host's coming cycles. -/
theorem inv_withHost {s : State} (l : List PortCycle) (h : Inv s) : Inv (withHost s l) := h

/-- An answer that can be looked at is a next state. -/
theorem next_of_look {α : Type} {f : State → α} {r : Answer} {a : α} (h : look f r = some a) : ∃ t, r = .next t ∧ f t = a := by
  cases r with
  | next t => exact ⟨t, rfl, by simpa [look] using h⟩
  | fault x => exact absurd h (by simp [look])
  | refused x => exact absurd h (by simp [look])

/-- A step inside a transform, which completes it: `BUSY` before, not after. -/
theorem witness_StepKeepsTheInvariant :
    ∃ t, Inv (withHost lastOperation [writeCycle 0x0800 5 true]) ∧
      step (withHost lastOperation [writeCycle 0x0800 5 true]) = .next t := by
  obtain ⟨t, h, -⟩ := next_of_look test_completing_edge
  exact ⟨t, inv_withHost _ inv_lastOperation, h⟩

/-- An idle block after reset, and a block ready for a transform that will overflow. -/
theorem witness_EngineStaysInsideItsContracts : Inv State.reset ∧ Inv (ready 4 [2 ^ 29, 2 ^ 29, 2 ^ 29, 2 ^ 29] [0, 0, 0, 0]) := by
  refine ⟨⟨by decide, by decide, by decide, by decide, by decide, by decide, by decide, by decide, by decide, by decide, rfl⟩,
    inv_ready4_large⟩

theorem witness_ConfigurationNeverChanges : ∃ t, step (ready 8 [] []) = .next t := by
  obtain ⟨t, h, -⟩ := next_of_look
    (show look (fun t => t.cfg) (step (ready 8 [] [])) = some .default by decide +kernel)
  exact ⟨t, h⟩

theorem witness_TableIsReadOnlyWhileValid :
    ∃ t, Inv (withHost lastOperation []) ∧ step (withHost lastOperation []) = .next t ∧ lastOperation.status.tableValid = true ∧
      t.status.tableValid = true := by
  obtain ⟨t, h, ht⟩ := next_of_look
    (show look (fun t => t.status.tableValid) (step (withHost lastOperation [])) = some true by decide +kernel)
  exact ⟨t, inv_withHost _ inv_lastOperation, h, rfl, ht⟩

theorem witness_BusyEndsInDone :
    ∃ t, Inv (withHost lastOperation []) ∧ lastOperation.status.busy = true ∧ step (withHost lastOperation []) = .next t ∧
      (∀ c rest, NextCycle (withHost lastOperation []) c rest → c.rst = false) ∧ t.status.done = true := by
  obtain ⟨t, h, ht⟩ := next_of_look
    (show look (fun t => t.status.done) (step (withHost lastOperation [])) = some true by decide +kernel)
  exact ⟨t, inv_withHost _ inv_lastOperation, rfl, h, fun c rest hn => absurd hn.2 (by simp [withHost]), ht⟩

theorem witness_HostCannotDisturbARunningCommand :
    lastOperation.uop = none ∧ lastOperation.status.busy = true ∧ (writeCycle 0x0800 5 true).rst = false ∧
    (quietCycle true).rst = false ∧ (writeCycle 0x0800 5 true).engine = (quietCycle true).engine := by decide

/-- A write to `RE` at the edge at which the transform completes; `BUSY` is 0 afterwards. -/
theorem witness_WriteAtTheCompletingEdgeIsRejected :
    let c := writeCycle 0x0800 5 true
    let s := withHost lastOperation [c]
    ∃ t, NextCycle s c [] ∧ s.status.busy = true ∧ Writes s c (.re 0) ∧ step s = .next t ∧ t.status.busy = false ∧
      s.status.err = false := by
  obtain ⟨t, h, ht⟩ := next_of_look
    (show look (fun t => t.status.busy) (step (withHost lastOperation [writeCycle 0x0800 5 true])) = some false by decide +kernel)
  exact ⟨t, ⟨rfl, rfl⟩, rfl, by decide +kernel, h, ht, rfl⟩
/-- The other two kinds of write. -/
theorem witness_WriteAtTheCompletingEdgeIsRejected_others :
    Writes lastOperation (writeCycle 0 4 true) .cmd ∧ Writes lastOperation (writeCycle 0x13FF 5 true) (.im 1023) := by
  decide +kernel

/-! The port. -/

theorem witness_SampleReadsBackAsWritten :
    State.reset.cfg.Legal ∧ State.reset.status.busy = false ∧ 1023 < State.reset.cfg.amax ∧ 0 < State.reset.cfg.amax := by
  decide +kernel

/-- Each clause at its boundary: offsets 3, `AMAX`, `2·AMAX - 1`; no table; an offset at DEPTH. -/
theorem witness_HolesReadZeroAndIgnoreWrites :
    State.reset.cfg.Legal ∧ State.reset.status.busy = false ∧ 3 < 2 * State.reset.cfg.amax ∧ 1024 < 2 * State.reset.cfg.amax ∧
    2047 < 2 * State.reset.cfg.amax ∧ State.reset.cfg.amax ≤ 1024 ∧ State.reset.status.tableValid = false ∧
    (ready 8 [] []).status.busy = false ∧ depth (ready 8 [] []).tableA ≤ 10 := by decide +kernel

theorem witness_TableReadsReturnTheEntries :
    let s := ready 8 [] []
    s.status.busy = false ∧ s.status.tableValid = true ∧ isSize s.cfg s.tableA = true ∧
      TableHolds s.tw s.tableA (depth s.tableA) ∧ 9 < depth s.tableA ∧ 0 < depth s.tableA := by decide +kernel

theorem witness_ReadsHaveNoSideEffect :
    let c := readCycle 0x0800 false
    NextCycle (withHost lastOperation [c]) c [] ∧ c.rst = false ∧ c.sel = true ∧ c.we = false ∧ c.engine = false ∧
    NextCycle (withHost State.reset [readCycle 1 true]) (readCycle 1 true) [] ∧ State.reset.status.busy = false := by decide +kernel

theorem witness_RegistersReadAsLaidOut : 1 ≤ State.reset.cfg.log2Amax := by decide

/-- Each kind of address. -/
theorem witness_AccessesWhileBusy :
    lastOperation.status.busy = true ∧ target lastOperation.cfg 0 = .cmd ∧ target lastOperation.cfg 0x0800 = .re 0 ∧
    target lastOperation.cfg 0x13FF = .im 1023 ∧ target lastOperation.cfg 1 = .status ∧ target lastOperation.cfg 2 = .tableA ∧
    target lastOperation.cfg 0x1800 = .tw 0 ∧ target lastOperation.cfg 3 = .hole := by decide +kernel

/-! Whole commands. -/

theorem witness_BuildRunsToCompletion :
    State.reset.cfg.Legal ∧ isSize State.reset.cfg (1024 : BitVec 16).toNat = true ∧
    isSize State.reset.cfg (2 : BitVec 16).toNat = true ∧ State.reset.status.busy = false ∧ Alone State.reset := by decide +kernel

theorem ready_for (A : Nat) (re im : List Int) : ReadyFor (ready A re im) A := ⟨rfl, ⟨rfl, rfl⟩, rfl, rfl⟩

theorem witness_XformRunsToCompletion :
    Inv (ready 8 [-3, 5, 0, 7, -7, 2, 1, -1] [0, 0, 0, 0, 0, 0, 0, 0]) ∧ isSize .default (8 : BitVec 16).toNat = true ∧
    ReadyFor (ready 8 [-3, 5, 0, 7, -7, 2, 1, -1] [0, 0, 0, 0, 0, 0, 0, 0]) (8 : BitVec 16).toNat :=
  ⟨inv_ready8, by decide +kernel, ready_for 8 _ _⟩

/-- The taps of V103. -/
def tapsV103 (j : Nat) : ScaledComplex := ⟨([-3, 5, 0, 7, -7, 2, 1, -1] : List Int).getD j 0, 0⟩

theorem witness_XformComputesItsStages :
    let s := ready 8 [-3, 5, 0, 7, -7, 2, 1, -1] [0, 0, 0, 0, 0, 0, 0, 0]
    Inv s ∧ isSize s.cfg (8 : BitVec 16).toNat = true ∧ ReadyFor s (8 : BitVec 16).toNat ∧ HoldsTaps s (8 : BitVec 16).toNat tapsV103 ∧
    (∀ st < stages (8 : BitVec 16).toNat, ∀ j < (8 : BitVec 16).toNat,
      fits s.cfg.sampleW (tapsAfter (8 : BitVec 16).toNat tapsV103 st j).re ∧
      fits s.cfg.sampleW (tapsAfter (8 : BitVec 16).toNat tapsV103 st j).im) :=
  ⟨inv_ready8, by decide +kernel, ready_for 8 _ _, by decide +kernel, by decide +kernel⟩

/-- V103: the composition of the stages has the values of the vector. -/
theorem test_stages_V103 :
    (List.range 8).map (tapsAfter 8 tapsV103 2) =
      [⟨4, 0⟩, ⟨0, -8⟩, ⟨-11, -1⟩, ⟨7, -10⟩, ⟨-22, 0⟩, ⟨8, 10⟩, ⟨-11, 1⟩, ⟨1, 8⟩] := by decide +kernel

/-- V115: `[2^29] × 4` overflows in stage 1 at index 0. -/
theorem witness_XformOverflowIsAFault :
    let s := ready 4 [2 ^ 29, 2 ^ 29, 2 ^ 29, 2 ^ 29] [0, 0, 0, 0]
    Inv s ∧ isSize s.cfg (4 : BitVec 16).toNat = true ∧ ReadyFor s (4 : BitVec 16).toNat ∧
    HoldsTaps s (4 : BitVec 16).toNat (fun _ => ⟨2 ^ 29, 0⟩) ∧ 1 < stages (4 : BitVec 16).toNat ∧ 0 < (4 : BitVec 16).toNat ∧
    ¬(fits s.cfg.sampleW (tapsAfter (4 : BitVec 16).toNat (fun _ => ⟨2 ^ 29, 0⟩) 1 0).re ∧
      fits s.cfg.sampleW (tapsAfter (4 : BitVec 16).toNat (fun _ => ⟨2 ^ 29, 0⟩) 1 0).im) :=
  ⟨inv_ready4_large, by decide +kernel, ready_for 4 _ _, by decide +kernel, by decide +kernel, by decide +kernel, by decide +kernel⟩

/-- S7. -/
theorem witness_TwoPointTransformIsExact :
    let s := ready 2 [3, 5] [0, 0]
    Inv s ∧ ReadyFor s 2 ∧ s.re.find 0 = some 3 ∧ s.re.find 1 = some 5 ∧ fits s.cfg.sampleW (3 + 5) ∧ fits s.cfg.sampleW (3 - 5) :=
  ⟨inv_ready2, ready_for 2 _ _, by decide +kernel, by decide +kernel, by decide +kernel, by decide +kernel⟩

/-- V101. -/
theorem witness_FourPointTransformIsExact :
    let s := ready 4 [1, 2, 3, 4] [0, 0, 0, 0]
    Inv s ∧ 2 ≤ s.cfg.log2Amax ∧ ReadyFor s 4 ∧ HoldsTaps s 4 (fun j => ⟨(j : Int) + 1, 0⟩) ∧
    (∀ j : Nat, j < 4 → 4 * |((j : Int) + 1)| < ((2 ^ (s.cfg.sampleW - 1) : Nat) : Int)) :=
  ⟨inv_ready4, by decide, ready_for 4 _ _, by decide +kernel, by decide +kernel⟩

/-- V107. -/
theorem witness_ImpulseGivesAFlatSpectrum :
    let s := ready 8 [100, 0, 0, 0, 0, 0, 0, 0] [0, 0, 0, 0, 0, 0, 0, 0]
    Inv s ∧ isSize s.cfg (8 : BitVec 16).toNat = true ∧ ReadyFor s (8 : BitVec 16).toNat ∧ fits s.cfg.sampleW 100 ∧
    HoldsTaps s (8 : BitVec 16).toNat (fun j => ⟨if j = 0 then 100 else 0, 0⟩) :=
  ⟨inv_ready8_impulse, by decide +kernel, ready_for 8 _ _, by decide +kernel, by decide +kernel⟩

/-- V108. -/
theorem witness_ConstantGivesBinZero :
    let s := ready 8 [7, 7, 7, 7, 7, 7, 7, 7] [0, 0, 0, 0, 0, 0, 0, 0]
    Inv s ∧ isSize s.cfg (8 : BitVec 16).toNat = true ∧ ReadyFor s (8 : BitVec 16).toNat ∧
    fits s.cfg.sampleW (((8 : BitVec 16).toNat : Int) * 7) ∧ HoldsTaps s (8 : BitVec 16).toNat (fun _ => ⟨7, 0⟩) :=
  ⟨inv_ready8_constant, by decide +kernel, ready_for 8 _ _, by decide +kernel, by decide +kernel⟩

/-- V103 again, with `B = 7`. -/
theorem witness_HeadroomRulesOverflowOut :
    let s := ready 8 [-3, 5, 0, 7, -7, 2, 1, -1] [0, 0, 0, 0, 0, 0, 0, 0]
    Inv s ∧ isSize s.cfg (8 : BitVec 16).toNat = true ∧ (8 : BitVec 16).toNat ≤ 4096 ∧ ReadyFor s (8 : BitVec 16).toNat ∧
    HoldsTaps s (8 : BitVec 16).toNat (fun j => ⟨([-3, 5, 0, 7, -7, 2, 1, -1] : List Int).getD j 0, 0⟩) ∧
    (∀ j < (8 : BitVec 16).toNat, |([-3, 5, 0, 7, -7, 2, 1, -1] : List Int).getD j 0| ≤ ((7 : Nat) : Int)) ∧
    11 * (8 : BitVec 16).toNat * (7 + 1) ≤ 10 * (2 ^ (s.cfg.sampleW - 1) - 1) :=
  ⟨inv_ready8, by decide +kernel, by decide, ready_for 8 _ _, by decide +kernel, by decide +kernel, by decide +kernel⟩

/-! Host programs. -/

/-- R79: `WAIT` stays while `BUSY` reads 1, also at the edge at which the command completes, and is done when it reads 0. -/
theorem test_wait :
    (match programEdge true [.wait] lastOperation with
      | .next (t, left) => some (t.rdata, t.status.busy, left)
      | _ => none) = some (some 0x09, false, [.wait]) ∧
    (match programEdge true [.wait] (ready 8 [] []) with
      | .next (t, left) => some (t.rdata, t.status.busy, left)
      | _ => none) = some (some 0x08, false, []) := by decide +kernel

/-- R79: the expansion of `FFT 2, [3, -5]` and `SETUP 8`. -/
theorem test_expansions :
    pseudoFft 2 [3, -5] = [.act (.wrre 0 3), .act (.wrre 1 (-5)), .act (.wrim 0 0), .act (.wrim 1 0), .act (.xform 2), .wait] ∧
    pseudoSetup 8 = [.act (.build 8), .wait] := by decide

/-- Both clauses of WaitRepeatsUntilBusyReadsZero: a busy and an idle block. -/
theorem witness_WaitRepeatsUntilBusyReadsZero :
    lastOperation.uop = none ∧ lastOperation.status.busy = true ∧ (ready 8 [] []).uop = none ∧ (ready 8 [] []).status.busy = false := by
  decide +kernel

/-- V103. -/
theorem witness_FftProgramLeavesTheTransform :
    let s := ready 8 [-3, 5, 0, 7, -7, 2, 1, -1] [0, 0, 0, 0, 0, 0, 0, 0]
    let vs : List PortWord := [-3, 5, 0, 7, -7, 2, 1, -1]
    let x : Nat → ScaledComplex := fun j => ⟨signedLow s.cfg.sampleW (vs.getD j 0), 0⟩
    Inv s ∧ isSize s.cfg (8 : BitVec 16).toNat = true ∧ s.status.busy = false ∧ s.status.tableValid = true ∧
    s.tableA = (8 : BitVec 16).toNat ∧ vs.length = (8 : BitVec 16).toNat ∧
    (∀ st < stages (8 : BitVec 16).toNat, ∀ j < (8 : BitVec 16).toNat,
      fits s.cfg.sampleW (tapsAfter (8 : BitVec 16).toNat x st j).re ∧
      fits s.cfg.sampleW (tapsAfter (8 : BitVec 16).toNat x st j).im) :=
  ⟨inv_ready8, by decide +kernel, rfl, rfl, by decide +kernel, by decide +kernel, by decide +kernel⟩

end Sys2Proof.Tests
end

section
/-! PROOFS. The operations of a transform when every store fits (44_butterfly_engine.md R153, R156 to R158), and what each step of a
running transform does to the taps. -/

namespace Sys2Proof.Machine

/-! Operations whose stores fit. -/

/-- The listed words after a store of a word. -/
theorem find_mem_put (s : State) (sp sq : Space) (i j : Nat) (v : Int) :
    ((put s sp i v).mem sq).find j = if sq = sp ∧ j = i then some v else (s.mem sq).find j := by
  by_cases hsp : sq = sp
  · subst hsp
    simp [put, find_write]
  · simp [put, setMem_mem_ne s _ hsp, hsp]

/-- Both parts of a tap fit `SAMPLE_W` bits (44_butterfly_engine.md R157). -/
abbrev FitsTap (c : Params) (v : ScaledComplex) : Prop := fits c.sampleW v.re ∧ fits c.sampleW v.im

theorem store_of_fits {s : State} {v : Int} (sp : Space) (j : Nat) (h : fits s.cfg.sampleW v) :
    store sp j v s = .next (put s sp j v) :=
  if_pos h

theorem storeTap_of_fits {s : State} {v : ScaledComplex} (j : Nat) (h : FitsTap s.cfg v) :
    storeTap j v s = .next (put (put s .re j v.re) .im j v.im) := by
  rw [storeTap, store_of_fits .re j h.1, andThen_next, store_of_fits .im j (by simpa using h.2)]

theorem execPair0_of_fits {s : State} {i : Nat} (hi : i + 1 < s.cfg.amax)
    (hsum : fits s.cfg.sampleW (load s .re i + load s .re (i + 1)))
    (hdiff : fits s.cfg.sampleW (load s .re i - load s .re (i + 1))) :
    execPair0 i s = .next (put (put s .re i (load s .re i + load s .re (i + 1))) .re (i + 1)
      (load s .re i - load s .re (i + 1))) := by
  rw [execPair0, if_pos hi, store_of_fits .re i hsum, andThen_next, store_of_fits .re (i + 1) (by simpa using hdiff)]

theorem butterfly_of_fits {s : State} {a b z p m : Nat} {w : ScaledComplex} (ha : a < s.cfg.amax) (hb : b < s.cfg.amax)
    (hw : lookup s z (2 * p) = some w) (hsum : FitsTap s.cfg (cadd (latch s a b m w).e (latch s a b m w).t))
    (hdiff : FitsTap s.cfg (csub (latch s a b m w).e (latch s a b m w).t)) :
    let r := latch s a b m w
    let u := cadd r.e r.t
    let v := csub r.e r.t
    butterfly a b z p m s = .next (put (put (put (put (s.setOpnd r) .re a u.re) .im a u.im) .re b v.re) .im b v.im) := by
  simp only [butterfly, ha, hb, and_self, if_true, hw]
  rw [storeTap_of_fits a (by simpa using hsum), andThen_next, storeTap_of_fits b (by simpa using hdiff)]

/-- `XFORM` of the table's size on an idle block is accepted (45_commands.md R182, 60_exceptions.md R212). -/
theorem execXform_of_readyFor {s : State} {size : BitVec 16} (hsize : isSize s.cfg size.toNat = true)
    (hr : ReadyFor s size.toNat) : execXform size s = .next (acceptXform size.toNat s) := by
  obtain ⟨hbusy, -, hvalid, hbase⟩ := hr
  simp [execXform, issue, checkXform, hbusy, hsize, hvalid, hbase]

/-- The step of a busy block that is left alone, when the operation of its phase completes. -/
theorem step_of_exec {s u : State} {i : Instr} (ha : Alone s) (hb : s.status.busy = true)
    (hi : nextOperation s.seq = some i) (hx : exec i (atEdge s []) = .next u) :
    step s = .next (advance s.seq.phase u) := by
  rw [step_alone ha, if_pos hb, engineOp, show (atEdge s []).seq = s.seq from rfl, hi]
  simp only [hx, andThen_next]

/-- With two stages or more, a stage-0 combine is followed by the next one or by `GENERAL` (44_butterfly_engine.md R154, R159). -/
theorem afterPair0_eq {s : State} (hm : 2 ≤ s.seq.m) :
    afterPair0 s =
      s.setSeq (if s.seq.i + 2 ≤ s.seq.n - 2 then { s.seq with i := s.seq.i + 2 } else startGeneral s.seq) := by
  rw [afterPair0, if_pos hm]
  split <;> rfl

/-! The taps after each operation, on values. -/

/-- The taps after `BRPASS(4)`, which exchanges the real parts of taps 1 and 2 (43_bit_reversal.md R137, R138). -/
def reorderFourTaps (x : Nat → ScaledComplex) (j : Nat) : ScaledComplex :=
  ⟨if j = 2 then (x 1).re else if j = 1 then (x 2).re else (x j).re, (x j).im⟩

/-- The taps after `PAIR0(i)` (44_butterfly_engine.md R153). -/
def pairTaps (i : Nat) (x : Nat → ScaledComplex) (j : Nat) : ScaledComplex :=
  ⟨if j = i + 1 then (x i).re - (x (i + 1)).re else if j = i then (x i).re + (x (i + 1)).re else (x j).re, (x j).im⟩

/-- The taps after a butterfly on `a` and `b` with the twiddle pair `w` (44_butterfly_engine.md R156). -/
def butterflyTaps (a b m : Nat) (w : ScaledComplex) (x : Nat → ScaledComplex) (j : Nat) : ScaledComplex :=
  if j = b then csub (x a) (crsh (cmul (x b) w) m) else if j = a then cadd (x a) (crsh (cmul (x b) w) m) else x j

/-- The twiddle pair at a table index of base size `A` (41_twiddle_rom.md R116). -/
def twiddlePair (A i : Nat) : ScaledComplex := ⟨twiddleEntry A i, twiddleEntry A (i + quarterOffset A)⟩

/-- The twiddle pair at step `z` of a stage with `p` steps to the half turn (44_butterfly_engine.md R156, R161). -/
def stepTwiddle (N z p : Nat) : ScaledComplex := twiddlePair N (lookupIndex N z (2 * p))

/-- The taps after `DBFLY(i, k2, z, p, m)` (44_butterfly_engine.md R158). -/
def dualTaps (N i k2 z p m : Nat) (x : Nat → ScaledComplex) : Nat → ScaledComplex :=
  butterflyTaps (i + 1) (i + 1 + k2) m (stepTwiddle N (nextZ z p) p) (butterflyTaps i (i + k2) m (stepTwiddle N z p) x)

/-! A transform in progress. -/

/-- A transform of size `N` is in progress on a block that is left alone, and the taps are `x`. Nothing is said of SEQ. -/
structure Transforming (s : State) (N : Nat) (x : Nat → ScaledComplex) : Prop where
  size : isSize s.cfg N = true
  alone : Alone s
  busy : s.status.busy = true
  valid : s.status.tableValid = true
  base : s.tableA = N
  table : TableHolds s.tw N (depth N)
  taps : HoldsTaps s N x

/-- A tap that has been written is what a load finds. -/
theorem loadTap_of_holdsTaps {s : State} {N j : Nat} {x : Nat → ScaledComplex} (h : HoldsTaps s N x) (hj : j < N) :
    loadTap s j = x j := by
  obtain ⟨hre, him⟩ := h j hj
  rw [loadTap, load_of_find (sp := .re) hre, load_of_find (sp := .im) him]

namespace Transforming

variable {s : State} {N : Nat} {x : Nat → ScaledComplex}

/-- What a transform in progress depends on. -/
theorem of_frame {u : State} {y : Nat → ScaledComplex} (h : Transforming s N x) (hcfg : u.cfg = s.cfg)
    (hhost : u.host = s.host) (huop : u.uop = s.uop) (hstatus : u.status = s.status) (hbase : u.tableA = s.tableA)
    (htw : u.tw = s.tw) (htaps : HoldsTaps u N y) : Transforming u N y where
  size := hcfg ▸ h.size
  alone := ⟨hhost.trans h.alone.1, huop.trans h.alone.2⟩
  busy := hstatus ▸ h.busy
  valid := hstatus ▸ h.valid
  base := hbase.trans h.base
  table := htw ▸ h.table
  taps := htaps

theorem congr_taps {y : Nat → ScaledComplex} (h : Transforming s N x) (hxy : ∀ j < N, x j = y j) : Transforming s N y :=
  h.of_frame rfl rfl rfl rfl rfl rfl fun j hj => hxy j hj ▸ h.taps j hj

theorem setSeq (h : Transforming s N x) (q : Seq) : Transforming (s.setSeq q) N x :=
  h.of_frame rfl rfl rfl rfl rfl rfl h.taps

theorem at_edge (h : Transforming s N x) : Transforming (atEdge s []) N x :=
  h.of_frame rfl h.alone.1.symm rfl rfl rfl rfl h.taps

theorem lt_amax {j : Nat} (h : Transforming s N x) (hj : j < N) : j < s.cfg.amax :=
  hj.trans_le (le_amax_of_isSize h.size)

theorem loadTap_eq {j : Nat} (h : Transforming s N x) (hj : j < N) : loadTap s j = x j :=
  loadTap_of_holdsTaps h.taps hj

theorem load_re {j : Nat} (h : Transforming s N x) (hj : j < N) : load s .re j = (x j).re :=
  congrArg ScaledComplex.re (h.loadTap_eq hj)

theorem load_tw {i : Nat} (h : Transforming s N x) (hi : i < depth N) : load s .tw i = twiddleEntry N i :=
  load_of_find (h.table i hi)

/-- Every lookup of a transform finds its pair in the table (41_twiddle_rom.md R116, R117). -/
theorem lookup_eq {z P : Nat} (h : Transforming s N x) (hpow : isPow2 P = true) (h4 : 4 ≤ P) (hPN : P ≤ N) (hz : z < P) :
    lookup s z P = some (twiddlePair N (lookupIndex N z P)) := by
  have hindex : lookupIndex N z P < N := calc
    N / P * z < N / P * P := Nat.mul_lt_mul_of_pos_left hz (Nat.div_pos hPN (by omega))
    _ ≤ N := Nat.div_mul_le_self N P
  have hdef : LookupDefined s z P := ⟨h.valid, by rw [h.base]; omega, hpow, h4, by rw [h.base]; exact hPN, hz⟩
  rw [lookup, if_pos hdef, h.base, h.load_tw (by unfold depth; omega), h.load_tw (by unfold depth; omega), twiddlePair]

/-- `BRPASS(4)` on a transform of size 4. -/
theorem execBrpass_four (h : Transforming s 4 x) :
    ∃ u, execBrpass 4 s = .next u ∧ Transforming u 4 (reorderFourTaps x) ∧ u.seq = s.seq ∧ u.cfg = s.cfg := by
  have hloop : (List.range 4).foldl (reorderAt 4) s = swapRe 1 2 s := by
    have hsize : ∀ m, isSize (swapRe 1 2 s).cfg m = isSize s.cfg m := fun m => by simp [swapRe]
    have hrev : bitReverse 0 4 = 0 ∧ bitReverse 1 4 = 2 ∧ bitReverse 2 4 = 1 ∧ bitReverse 3 4 = 3 := by decide
    simp [List.range_succ, reorderAt, passIndex_of_isSize, h.size, hsize, hrev]
  refine ⟨swapRe 1 2 s, by rw [execBrpass, hloop], ?_, by simp [swapRe], by simp [swapRe]⟩
  refine h.of_frame (by simp [swapRe]) (by simp [swapRe]) (by simp [swapRe]) (by simp [swapRe]) (by simp [swapRe]) rfl ?_
  intro j hj
  obtain ⟨hre, him⟩ := h.taps j hj
  refine ⟨?_, him⟩
  rw [← mem_re, swapRe, find_mem_put, find_mem_put, h.load_re (by omega), h.load_re (by omega), mem_re, hre, reorderFourTaps]
  split_ifs <;> simp_all

/-- `PAIR0(i)` of a transform whose two stores fit. -/
theorem execPair0_eq {i : Nat} (h : Transforming s N x) (hi : i + 1 < N)
    (hsum : fits s.cfg.sampleW ((x i).re + (x (i + 1)).re)) (hdiff : fits s.cfg.sampleW ((x i).re - (x (i + 1)).re)) :
    ∃ u, execPair0 i s = .next u ∧ Transforming u N (pairTaps i x) ∧ u.seq = s.seq ∧ u.cfg = s.cfg := by
  have h0 : load s .re i = (x i).re := h.load_re (by omega)
  have h1 : load s .re (i + 1) = (x (i + 1)).re := h.load_re hi
  refine ⟨_, execPair0_of_fits (h.lt_amax hi) (by rwa [h0, h1]) (by rwa [h0, h1]), ?_, by simp, by simp⟩
  refine h.of_frame (by simp) (by simp) (by simp) (by simp) (by simp) rfl ?_
  intro j hj
  obtain ⟨hre, him⟩ := h.taps j hj
  refine ⟨?_, him⟩
  rw [← mem_re, find_mem_put, find_mem_put, h0, h1, mem_re, hre, pairTaps]
  split_ifs <;> simp_all

/-- One butterfly of a transform whose stores fit. -/
theorem butterfly_eq {a b z p m : Nat} {w : ScaledComplex} (h : Transforming s N x) (ha : a < N) (hb : b < N) (hab : a ≠ b)
    (hw : lookup s z (2 * p) = some w) (hfa : FitsTap s.cfg (butterflyTaps a b m w x a))
    (hfb : FitsTap s.cfg (butterflyTaps a b m w x b)) :
    ∃ u, butterfly a b z p m s = .next u ∧ Transforming u N (butterflyTaps a b m w x) ∧ u.seq = s.seq ∧ u.cfg = s.cfg := by
  have hlatch : latch s a b m w = { e := x a, o := x b, w := w, t := crsh (cmul (x b) w) m } := by
    rw [latch, h.loadTap_eq ha, h.loadTap_eq hb]
  refine ⟨_, butterfly_of_fits (h.lt_amax ha) (h.lt_amax hb) hw
    (by simpa [hlatch, butterflyTaps, hab] using hfa) (by simpa [hlatch, butterflyTaps] using hfb), ?_, by simp, by simp⟩
  refine h.of_frame (by simp) (by simp) (by simp) (by simp) (by simp) rfl ?_
  intro j hj
  obtain ⟨hre, him⟩ := h.taps j hj
  constructor
  · rw [← mem_re]
    simp only [find_mem_put, hlatch, butterflyTaps]
    split_ifs <;> simp_all
  · rw [← mem_im]
    simp only [find_mem_put, hlatch, butterflyTaps]
    split_ifs <;> simp_all

/-- A dual butterfly of a transform after which every tap fits. -/
theorem execDbfly_eq {i k2 z p m : Nat} (h : Transforming s N x) (hi : i + 1 + k2 < N) (hk : 2 ≤ k2)
    (hpow : isPow2 (2 * p) = true) (h4 : 4 ≤ 2 * p) (hpN : 2 * p ≤ N) (hz : z < p)
    (hfit : ∀ j < N, FitsTap s.cfg (dualTaps N i k2 z p m x j)) :
    ∃ u, execDbfly i k2 z p m s = .next u ∧ Transforming u N (dualTaps N i k2 z p m x) ∧ u.seq = s.seq ∧
      u.cfg = s.cfg ∧ u.result = .index (nextZ (nextZ z p) p) := by
  have hz' : nextZ z p < 2 * p := by
    unfold nextZ
    split <;> omega
  have hfit0 : ∀ j, j = i ∨ j = i + k2 → FitsTap s.cfg (butterflyTaps i (i + k2) m (stepTwiddle N z p) x j) := by
    intro j hj
    have hout : j ≠ i + 1 ∧ j ≠ i + 1 + k2 := by omega
    have hj2 := hfit j (by omega)
    rwa [dualTaps, butterflyTaps, if_neg hout.2, if_neg hout.1] at hj2
  obtain ⟨u, hu, hT, hseq, hcfg⟩ := h.butterfly_eq (by omega) (by omega) (by omega)
    (h.lookup_eq hpow h4 hpN (by omega)) (hfit0 i (.inl rfl)) (hfit0 (i + k2) (.inr rfl))
  obtain ⟨v, hv, hT', hseq', hcfg'⟩ := hT.butterfly_eq (by omega) hi (by omega) (hT.lookup_eq hpow h4 hpN hz')
    (hcfg ▸ hfit (i + 1) (by omega)) (hcfg ▸ hfit (i + 1 + k2) hi)
  refine ⟨{ v with result := .index (nextZ (nextZ z p) p) }, ?_, hT'.of_frame rfl rfl rfl rfl rfl rfl hT'.taps,
    hseq'.trans hseq, hcfg'.trans hcfg, rfl⟩
  rw [execDbfly, hu, andThen_next, hv, andThen_next, deliver_eq]

/-! The steps of a transform. -/

/-- The step of `PERMUTE` in a transform of size 4. -/
theorem step_permute_four (h : Transforming s 4 x) (hph : s.seq.phase = .permute) (hn : s.seq.n = 4) :
    ∃ t, step s = .next t ∧ Transforming t 4 (reorderFourTaps x) ∧ t.seq = { s.seq with phase := .stage0, i := 0 } ∧
      t.cfg = s.cfg := by
  obtain ⟨u, hu, hT, hseq, hcfg⟩ := h.at_edge.execBrpass_four
  refine ⟨afterBrpass u, ?_, hT.setSeq _, by rw [afterBrpass, hseq]; rfl, hcfg⟩
  rw [step_of_exec (i := .brpass 4) h.alone h.busy (by rw [nextOperation, hph, hn]) hu, hph, advance]

/-- A step of `STAGE0` in a transform of two stages or more, whose two stores fit. -/
theorem step_stage0 {q : Seq} (h : Transforming s N x) (hq : s.seq = q) (hph : q.phase = .stage0) (hm : 2 ≤ q.m)
    (hi : q.i + 1 < N) (hsum : fits s.cfg.sampleW ((x q.i).re + (x (q.i + 1)).re))
    (hdiff : fits s.cfg.sampleW ((x q.i).re - (x (q.i + 1)).re)) :
    ∃ t, step s = .next t ∧ Transforming t N (pairTaps q.i x) ∧
      t.seq = (if q.i + 2 ≤ q.n - 2 then { q with i := q.i + 2 } else startGeneral q) ∧ t.cfg = s.cfg := by
  subst hq
  obtain ⟨u, hu, hT, hseq, hcfg⟩ := h.at_edge.execPair0_eq hi hsum hdiff
  have hseq : u.seq = s.seq := hseq
  refine ⟨afterPair0 u, ?_, ?_, ?_, ?_⟩
  · rw [step_of_exec (i := .pair0 s.seq.i) h.alone h.busy (by rw [nextOperation, hph]) hu, hph, advance]
  all_goals rw [afterPair0_eq (hseq ▸ hm)]
  · exact hT.setSeq _
  · rw [hseq, State.setSeq_seq]
  · exact hcfg

/-- A step of `GENERAL` after which every tap fits. -/
theorem step_general {q : Seq} (h : Transforming s N x) (hq : s.seq = q) (hph : q.phase = .general)
    (hi : q.i + 1 + 2 * q.k < N) (hk : 1 ≤ q.k) (hpow : isPow2 (2 * q.p) = true) (h4 : 4 ≤ 2 * q.p) (hpN : 2 * q.p ≤ N)
    (hz : q.z < q.p) (hfit : ∀ j < N, FitsTap s.cfg (dualTaps N q.i (2 * q.k) q.z q.p q.m x j)) :
    ∃ u, step s = .next (afterDbfly u) ∧ Transforming u N (dualTaps N q.i (2 * q.k) q.z q.p q.m x) ∧ u.seq = q ∧
      u.cfg = s.cfg ∧ u.result = .index (nextZ (nextZ q.z q.p) q.p) := by
  subst hq
  obtain ⟨u, hu, hT, hseq, hcfg, hres⟩ := h.at_edge.execDbfly_eq hi (by omega) hpow h4 hpN hz hfit
  refine ⟨u, ?_, hT, hseq, hcfg, hres⟩
  rw [step_of_exec (i := .dbfly s.seq.i (2 * s.seq.k) s.seq.z s.seq.p s.seq.m) h.alone h.busy
    (by rw [nextOperation, hph]) hu, hph, advance]

end Transforming

/-- An accepted `XFORM` is a transform in progress (45_commands.md R182). -/
theorem transforming_acceptXform {s : State} {N : Nat} {x : Nat → ScaledComplex} (hinv : Inv s) (hsize : isSize s.cfg N = true)
    (hr : ReadyFor s N) (hx : HoldsTaps s N x) : Transforming (acceptXform N s) N x := by
  obtain ⟨-, halone, hvalid, hbase⟩ := hr
  obtain ⟨-, -, -, -, -, -, htable, -⟩ := hinv
  exact ⟨hsize, halone, rfl, hvalid, hbase, hbase ▸ htable hvalid, hx⟩

/-! The exact 4-point transform (41_twiddle_rom.md R121). -/

@[simp] theorem floorShift_mul_two_pow (v : Int) (m : Nat) : floorShift (v * ((2 ^ m : Nat) : Int)) m = v :=
  Int.mul_ediv_cancel v (by positivity)

/-- The rescaled product with the pair `(A, 0)`, `A = 2^m`, is the tap itself. -/
theorem crsh_cmul_one (o : ScaledComplex) (m : Nat) : crsh (cmul o ⟨((2 ^ m : Nat) : Int), 0⟩) m = o := by
  simp only [crsh, cmul, mul_zero, sub_zero, zero_add, floorShift_mul_two_pow]

/-- The rescaled product with the pair `(0, -A)`, `A = 2^m`, is the tap turned by minus a quarter. -/
theorem crsh_cmul_neg_quarter (o : ScaledComplex) (m : Nat) :
    crsh (cmul o ⟨0, -((2 ^ m : Nat) : Int)⟩) m = ⟨o.im, -o.re⟩ := by
  simp only [crsh, cmul, mul_zero, zero_sub, mul_neg, neg_neg, add_zero, ← neg_mul, floorShift_mul_two_pow]

/-- The two rotations of a transform of size 4 are exact: its table holds the pairs `(4, 0)` and `(0, -4)`. -/
theorem crsh_cmul_stepTwiddle_four (o : ScaledComplex) :
    crsh (cmul o (stepTwiddle 4 0 2)) 2 = o ∧ crsh (cmul o (stepTwiddle 4 1 2)) 2 = ⟨o.im, -o.re⟩ := by
  have hpairs : stepTwiddle 4 0 2 = ⟨((2 ^ 2 : Nat) : Int), 0⟩ ∧ stepTwiddle 4 1 2 = ⟨0, -((2 ^ 2 : Nat) : Int)⟩ := by
    decide
  rw [hpairs.1, hpairs.2]
  exact ⟨crsh_cmul_one o 2, crsh_cmul_neg_quarter o 2⟩

/-- The taps of a transform of size 4 after stage 0. -/
def fourPointSums (x : Nat → Int) : Nat → ScaledComplex
  | 0 => ⟨x 0 + x 2, 0⟩
  | 1 => ⟨x 0 - x 2, 0⟩
  | 2 => ⟨x 1 + x 3, 0⟩
  | _ => ⟨x 1 - x 3, 0⟩

/-- The exact 4-point transform of a real input (00_scope.md R16). -/
def fourPointBins (x : Nat → Int) : Nat → ScaledComplex
  | 0 => ⟨x 0 + x 1 + x 2 + x 3, 0⟩
  | 1 => ⟨x 0 - x 2, x 3 - x 1⟩
  | 2 => ⟨x 0 - x 1 + x 2 - x 3, 0⟩
  | _ => ⟨x 0 - x 2, x 1 - x 3⟩

/-- The reorder pass and the two stage-0 combines. -/
theorem pairTaps_reorderFourTaps (x : Nat → Int) :
    ∀ j < 4, pairTaps 2 (pairTaps 0 (reorderFourTaps fun j => ⟨x j, 0⟩)) j = fourPointSums x j := by
  intro j hj
  interval_cases j <;> simp [pairTaps, reorderFourTaps, fourPointSums]

/-- The one dual butterfly. -/
theorem dualTaps_fourPointSums (x : Nat → Int) :
    ∀ j < 4, dualTaps 4 0 2 0 2 2 (fourPointSums x) j = fourPointBins x j := by
  have hz : nextZ 0 2 = 1 := rfl
  intro j hj
  interval_cases j
  all_goals
    simp [dualTaps, butterflyTaps, hz, crsh_cmul_stepTwiddle_four, cadd, csub, fourPointSums, fourPointBins] <;> ring

/-- A magnitude with two bits to spare, as linear bounds. -/
theorem bounds_of_abs {v B : Int} (h : 4 * |v| < B) : -B < 4 * v ∧ 4 * v < B :=
  abs_lt.mp (by rwa [abs_mul])

/-- When all inputs have two bits to spare, every bin fits. -/
theorem fitsTap_fourPointBins {c : Params} {x : Nat → Int}
    (hx : ∀ j < 4, 4 * |x j| < ((2 ^ (c.sampleW - 1) : Nat) : Int)) : ∀ j < 4, FitsTap c (fourPointBins x j) := by
  have h0 := bounds_of_abs (hx 0 (by omega))
  have h1 := bounds_of_abs (hx 1 (by omega))
  have h2 := bounds_of_abs (hx 2 (by omega))
  have h3 := bounds_of_abs (hx 3 (by omega))
  intro j hj
  interval_cases j <;> simp only [FitsTap, fits, fourPointBins] <;> omega

/-- The sequencer at the start of `GENERAL` in a transform of size 4. -/
def fourPointGeneral : Seq := { phase := .general, n := 4, m := 2, g := 0, k := 1, p := 2, i := 0, cnt := 0, z := 0 }

/-- After the one dual butterfly of a transform of size 4 the run is complete (44_butterfly_engine.md R159). -/
theorem afterDbfly_four {s : State} (hseq : s.seq = fourPointGeneral) (hres : s.result = .index 0) :
    afterDbfly s = completeXform (s.setSeq (endStage (advanceLoop fourPointGeneral 0))) := by
  rw [afterDbfly, hseq, hres]
  rfl

namespace Transforming

variable {s : State} {x : Nat → Int}

/-- From `PERMUTE` to `GENERAL` in a transform of size 4: the reorder pass and the two stage-0 combines. -/
theorem run_to_general_four (h : Transforming s 4 fun j => ⟨x j, 0⟩) (hph : s.seq.phase = .permute) (hn : s.seq.n = 4)
    (hm : s.seq.m = 2) (hx : ∀ j < 4, 4 * |x j| < ((2 ^ (s.cfg.sampleW - 1) : Nat) : Int)) :
    ∃ t, run 3 s = .next t ∧ Transforming t 4 (fourPointSums x) ∧ t.seq = fourPointGeneral ∧ t.cfg = s.cfg := by
  obtain ⟨s1, hs1, hT1, hq1, hc1⟩ := h.step_permute_four hph hn
  have hfits : ∀ j < 4, ∀ k < 4, fits s.cfg.sampleW (x j + x k) ∧ fits s.cfg.sampleW (x j - x k) := by
    intro j hj k hk
    have h1 := bounds_of_abs (hx j hj)
    have h2 := bounds_of_abs (hx k hk)
    omega
  obtain ⟨s2, hs2, hT2, hq2, hc2⟩ := hT1.step_stage0 hq1 rfl hm.ge (by simp)
    (by simpa [hc1, reorderFourTaps] using (hfits 0 (by decide) 2 (by decide)).1)
    (by simpa [hc1, reorderFourTaps] using (hfits 0 (by decide) 2 (by decide)).2)
  have hq2 : s2.seq = { s.seq with phase := .stage0, i := 2 } := by simpa [hn] using hq2
  obtain ⟨s3, hs3, hT3, hq3, hc3⟩ := hT2.step_stage0 hq2 rfl hm.ge (by simp)
    (by simpa [hc1, hc2, reorderFourTaps, pairTaps] using (hfits 1 (by decide) 3 (by decide)).1)
    (by simpa [hc1, hc2, reorderFourTaps, pairTaps] using (hfits 1 (by decide) 3 (by decide)).2)
  refine ⟨s3, by simp [run, hs1, hs2, hs3], hT3.congr_taps (pairTaps_reorderFourTaps x), ?_, by rw [hc3, hc2, hc1]⟩
  simp [hq3, hn, hm, startGeneral, fourPointGeneral]

/-- The last step of a transform of size 4: the one dual butterfly, and completion. -/
theorem step_last_four (h : Transforming s 4 (fourPointSums x)) (hq : s.seq = fourPointGeneral)
    (hfit : ∀ j < 4, FitsTap s.cfg (fourPointBins x j)) :
    ∃ t, step s = .next t ∧ t.status.busy = false ∧ t.status.done = true ∧ HoldsTaps t 4 (fourPointBins x) := by
  have hdual := dualTaps_fourPointSums x
  obtain ⟨u, hu, hT, hseq, -, hres⟩ := h.step_general hq rfl (by decide) (by decide) (by decide) (by decide) (by decide)
    (by decide) fun j hj => (hdual j hj).symm ▸ hfit j hj
  rw [afterDbfly_four hseq hres] at hu
  exact ⟨_, hu, rfl, rfl, (hT.congr_taps hdual).taps⟩

end Transforming

/-- Settles O55: the reorder pass and stage 0 leave the four sums and differences, and the one dual butterfly rotates by 1 and by a
quarter turn, which the table of size 4 holds without rounding. -/
theorem fourPointTransformIsExact : Obligations.FourPointTransformIsExact := by
  intro s x hinv hmax hready htaps hx
  have hsize : isSize s.cfg 4 = true := isSize_iff.mpr ⟨2, by omega, hmax, rfl⟩
  have hT := transforming_acceptXform hinv hsize hready htaps
  obtain ⟨s3, hrun, hT3, hseq, hcfg⟩ := hT.run_to_general_four rfl rfl rfl hx
  obtain ⟨t, hstep, hbusy, hdone, hbins⟩ := hT3.step_last_four hseq (hcfg ▸ fitsTap_fourPointBins hx)
  have hload : ∀ j < 4, loadTap t j = fourPointBins x j := fun j hj => loadTap_of_holdsTaps hbins hj
  refine ⟨acceptXform 4 s, t, execXform_of_readyFor (size := 4) hsize hready, ?_, hbusy, hdone, hload 0 (by omega),
    hload 1 (by omega), hload 2 (by omega), hload 3 (by omega)⟩
  rw [run_add 3 1, hrun, andThen_next, run, hstep, andThen_next, run]

end Sys2Proof.Machine
end

section
/-! PROOFS. What a step can do, as inversion lemmas: its forms, the Host's access, one Engine operation. The rules that need no
invariant follow from them. -/

namespace Sys2Proof.Machine

/-! The Host's access. -/

/-- Everything that the Host's access at an edge can do to the block (10_state.md R22, 45_commands.md R180 to R188,
60_exceptions.md R218), with the conditions under which it can. -/
inductive HostEffect (s : State) : State → Prop
  | nothing : HostEffect s s
  | rejected (c : Cause) : HostEffect s (reject c s)
  | read (d : PortWord) : HostEffect s (s.setRdata (some d))
  | sample {sp : Space} {i : Nat} (d : PortWord) (hb : s.status.busy = false) (hsp : sp ≠ .tw) (hi : i < s.cfg.amax) :
      HostEffect s (put s sp i (signedLow s.cfg.sampleW d))
  | build {A : Nat} (hb : s.status.busy = false) (hA : isSize s.cfg A = true) : HostEffect s (acceptBuild A s)
  | xform {N : Nat} (hb : s.status.busy = false) (hN : isSize s.cfg N = true) (hv : s.status.tableValid = true)
      (hA : s.tableA = N) : HostEffect s (acceptXform N s)
  | release (hb : s.status.busy = false) (hv : s.status.tableValid = true) : HostEffect s (acceptRelease s)
  | clrstat (hb : s.status.busy = false) : HostEffect s (acknowledge s)

theorem checkBuild_eq_none {A : Nat} {s : State} (h : checkBuild A s = none) : isSize s.cfg A = true := by
  simpa [checkBuild] using h

theorem checkXform_eq_none {N : Nat} {s : State} (h : checkXform N s = none) :
    isSize s.cfg N = true ∧ s.status.tableValid = true ∧ s.tableA = N := by
  unfold checkXform at h
  split_ifs at h with hN hv hA
  exact ⟨hN, hv, not_not.mp hA⟩

theorem checkRelease_eq_none {s : State} (h : checkRelease s = none) : s.status.tableValid = true := by
  simpa [checkRelease] using h

/-- The issue of a command rejects it or accepts it. -/
theorem hostEffect_of_issue {check : State → Option Cause} {accept : State → State} {s t : State}
    (h : issue check accept s = .next t)
    (ha : s.status.busy = false → check s = none → HostEffect s (accept s)) : HostEffect s t := by
  rcases issue_cases check accept s with ⟨-, he⟩ | ⟨-, c, -, he⟩ | ⟨hb, hc, he⟩ <;> rw [he] at h <;> injection h with h <;>
    subst h
  · exact .rejected _
  · exact .rejected c
  · exact ha hb hc

theorem writeCmd_effect {w : PortWord} {s t : State} (h : writeCmd w s = .next t) : HostEffect s t := by
  unfold writeCmd at h
  split at h
  · next i hi =>
    rcases decodeCmd_cases hi with rfl | rfl | rfl | rfl
    · exact hostEffect_of_issue h fun hb hc => .build hb (checkBuild_eq_none hc)
    · refine hostEffect_of_issue h fun hb hc => ?_
      obtain ⟨hN, hv, hA⟩ := checkXform_eq_none hc
      exact .xform hb hN hv hA
    · exact hostEffect_of_issue h fun hb hc => .release hb (checkRelease_eq_none hc)
    · exact hostEffect_of_issue (check := fun _ => none) h fun hb _ => .clrstat hb
  · split at h <;> injection h with h <;> subst h <;> exact .rejected _

theorem writeSample_effect {sp : Space} {i : Nat} (d : PortWord) {s : State} (hsp : sp ≠ .tw) (hi : i < s.cfg.amax) :
    HostEffect s (writeSample sp i d s) := by
  unfold writeSample
  split
  · exact .rejected _
  · next hb => exact .sample d (by simpa using hb) hsp hi

/-- The words of `RE` and `IM` that an address reaches exist (20_memory.md R50, R53). -/
theorem lt_amax_of_target {c : Params} {addr i : Nat} (h : target c addr = .re i ∨ target c addr = .im i) : i < c.amax := by
  unfold target at h
  dsimp only at h
  split at h
  · split at h <;> simp at h
  · split_ifs at h with hoff <;> simp at h
    exact h ▸ hoff
  · split_ifs at h with hoff <;> simp at h
    exact h ▸ hoff
  · simp at h

theorem hostWrite_effect {addr : Nat} {d : PortWord} {s t : State} (h : hostWrite addr d s = .next t) : HostEffect s t := by
  unfold hostWrite at h
  split at h
  · exact writeCmd_effect h
  · next i hi =>
    injection h with h
    exact h ▸ writeSample_effect d (by decide) (lt_amax_of_target (.inl hi))
  · next i hi =>
    injection h with h
    exact h ▸ writeSample_effect d (by decide) (lt_amax_of_target (.inr hi))
  all_goals
    injection h with h
    exact h ▸ .nothing

theorem hostAccess_effect {c : PortCycle} {s t : State} (h : hostAccess c s = .next t) : HostEffect s t := by
  unfold hostAccess at h
  split at h
  · split at h
    · exact hostWrite_effect h
    · injection h with h
      exact h ▸ .read _
  · injection h with h
    exact h ▸ .nothing

/-! One Engine operation, one edge, one step. -/

/-- The advance of SEQ changes SEQ, the flags and the base size alone. -/
theorem advance_frame (ph : Phase) (s : State) :
    advance ph s =
      { s with seq := (advance ph s).seq, status := (advance ph s).status, tableA := (advance ph s).tableA } := by
  cases ph with
  | idle => rfl
  | permute => rfl
  | building =>
    simp only [advance, afterTwgen]
    split <;> rfl
  | stage0 =>
    simp only [advance, afterPair0]
    split
    · rfl
    · split <;> rfl
  | general =>
    simp only [advance, afterDbfly]
    split
    · rfl
    · split <;> rfl

theorem engineOp_next {s t : State} (h : engineOp s = .next t) :
    (s.seq.phase = .idle ∧ t = s) ∨
    ∃ i u, nextOperation s.seq = some i ∧ exec i s = .next u ∧ t = advance s.seq.phase u := by
  rcases engineOp_eq s with ⟨hph, he⟩ | ⟨-, i, hi, he⟩ <;> rw [he] at h
  · injection h with h
    exact .inl ⟨hph, h.symm⟩
  · obtain ⟨u, hu, h⟩ := andThen_eq_next h
    injection h with h
    exact .inr ⟨i, u, hi, hu, h.symm⟩

/-- An edge is a reset, or the Host's access, which one operation of a busy Engine may follow. -/
theorem portEdge_next {c : PortCycle} {s t : State} (h : portEdge c s = .next t) :
    (c.rst = true ∧ t = resetEdge c s) ∨
    (c.rst = false ∧ ∃ u, HostEffect s u ∧ (t = u ∨ s.status.busy = true ∧ c.engine = true ∧ engineOp u = .next t)) := by
  unfold portEdge at h
  split at h
  · next hr =>
    injection h with h
    exact .inl ⟨hr, h.symm⟩
  · next hr =>
    obtain ⟨u, hu, h⟩ := andThen_eq_next h
    refine .inr ⟨by simpa using hr, u, hostAccess_effect hu, ?_⟩
    split at h
    · next hb => exact .inr ⟨hb.1, hb.2, h⟩
    · injection h with h
      exact .inl h.symm

/-- A step runs an operation from the select lines, or it is an edge of the port, with the Host's next cycle or a quiet one. -/
theorem step_next {s t : State} (h : step s = .next t) :
    (∃ u i, s.uop = some u ∧ decodeUop u = some i ∧ exec i { atEdge s s.host with uop := none } = .next t) ∨
    (s.uop = none ∧ ∃ c rest, (s.host = c :: rest ∨ c = quietCycle true ∧ s.host = [] ∧ rest = []) ∧
      portEdge c (atEdge s rest) = .next t) := by
  cases hu : s.uop with
  | some u =>
    rw [step_uop hu, runUop] at h
    split at h
    · next i hi => exact .inl ⟨u, i, rfl, hi, h⟩
    · cases h
  | none =>
    refine .inr ⟨rfl, ?_⟩
    cases hh : s.host with
    | cons c rest => exact ⟨c, rest, .inl rfl, step_cycle ⟨hu, hh⟩ ▸ h⟩
    | nil =>
      refine ⟨quietCycle true, [], .inr ⟨rfl, rfl, rfl⟩, ?_⟩
      simpa [step_alone ⟨hh, hu⟩, portEdge, quietCycle, hostAccess, show (atEdge s []).status = s.status from rfl] using h

/-! The configuration. -/

theorem HostEffect.cfg_eq {s t : State} (h : HostEffect s t) : t.cfg = s.cfg := by
  cases h with
  | sample d hb hsp hi => exact put_cfg ..
  | _ => rfl

theorem engineOp_cfg {s t : State} (h : engineOp s = .next t) : t.cfg = s.cfg := by
  rcases engineOp_next h with ⟨-, rfl⟩ | ⟨i, u, -, hu, rfl⟩
  · rfl
  · rw [advance_frame]
    exact (exec_next_frame hu).1

/-- Settles O39: neither a reset, nor the Host's access, nor an operation writes the configuration. -/
theorem configurationNeverChanges : Obligations.ConfigurationNeverChanges := by
  intro s t h
  rcases step_next h with ⟨u, i, -, -, hexec⟩ | ⟨-, c, rest, -, hedge⟩
  · exact (exec_next_frame hexec).1
  · rcases portEdge_next hedge with ⟨-, rfl⟩ | ⟨-, u, hu, rfl | ⟨-, -, ht⟩⟩
    · rfl
    · exact hu.cfg_eq
    · exact (engineOp_cfg ht).trans hu.cfg_eq

end Sys2Proof.Machine
end

section
/-! PROOFS. The invariant of the block (10_state.md R21 to R29): its parts, how each operation keeps them, and that every step does. -/

namespace Sys2Proof.Machine

/-! The part of the invariant about stored values. -/

/-- The memories and the operand registers hold values of their widths (10_state.md R23, R24, R29). -/
structure DataOk (s : State) : Prop where
  legal : s.cfg.Legal
  mem : ∀ sp, MemoryOk s.cfg sp (s.mem sp)
  opnd : OperandsOk s

theorem fits_mono {V W : Nat} {v : Int} (h : fits V v) (hVW : V ≤ W) : fits W v := by
  have hpow : 2 ^ (V - 1) ≤ 2 ^ (W - 1) := Nat.pow_le_pow_right Nat.two_pos (by omega)
  omega

theorem signedLow_fits {W : Nat} (x : PortWord) (hW : 1 ≤ W) : fits W (signedLow W x) := by
  have hpow : 2 ^ W = 2 * 2 ^ (W - 1) := by rw [← pow_succ', Nat.sub_add_cancel hW]
  have hpos : 0 < 2 ^ W := Nat.two_pow_pos W
  have hle := Int.le_bmod (x := (x.toNat : Int)) hpos
  have hlt := Int.bmod_lt (x := (x.toNat : Int)) hpos
  unfold signedLow
  omega

theorem one_le_spaceW {c : Params} (hc : c.Legal) (sp : Space) : 1 ≤ Params.spaceW c sp := by
  obtain ⟨-, -, hS, -⟩ := hc
  cases sp <;> simp only [Params.spaceW, Params.twW] <;> omega

theorem memoryOk_nil (c : Params) (sp : Space) : MemoryOk c sp [] := ⟨nil_wf, by simp⟩

theorem memoryOk_write {c : Params} {sp : Space} {m : Memory} {i : Nat} {v : Int} (h : MemoryOk c sp m)
    (hi : i < Params.spaceWords c sp) (hv : fits (Params.spaceW c sp) v) : MemoryOk c sp (m.write i v) := by
  refine ⟨write_wf h.1 i v, fun x hx => ?_⟩
  rcases mem_write hx with rfl | hx
  · exact ⟨hi, hv⟩
  · exact h.2 x hx

theorem abs_le_of_fits {W : Nat} {v : Int} (h : fits W v) : |v| ≤ 2 ^ (W - 1) := by
  rw [abs_le]
  push_cast [fits] at h
  omega

/-- A sample times a table word. -/
theorem abs_mul_le_of_fits {c : Params} (hc : c.Legal) {v w : Int} (hv : fits c.sampleW v) (hw : fits c.twW w) :
    |v * w| ≤ 2 ^ (c.sampleW + c.log2Amax) := by
  obtain ⟨-, -, hS, -⟩ := hc
  calc |v * w| = |v| * |w| := abs_mul v w
    _ ≤ 2 ^ (c.sampleW - 1) * 2 ^ (c.twW - 1) :=
      mul_le_mul (abs_le_of_fits hv) (abs_le_of_fits hw) (abs_nonneg w) (by positivity)
    _ = 2 ^ (c.sampleW + c.log2Amax) := by
      rw [← pow_add, Params.twW]
      congr 1
      omega

/-- A shift by one place or more halves a bound. -/
theorem abs_floorShift_le {m : Nat} (hm : 1 ≤ m) {v B : Int} (hv : |v| ≤ B + B) : |floorShift v m| ≤ B := by
  have hB : 0 ≤ B := by linarith [abs_nonneg v]
  have hpow : (2 : Int) ≤ ((2 ^ m : Nat) : Int) := by exact_mod_cast Nat.le_self_pow (by omega) 2
  have hhalf : B * 2 ≤ B * ((2 ^ m : Nat) : Int) := mul_le_mul_of_nonneg_left hpow hB
  obtain ⟨hlow, hhigh⟩ := abs_le.mp hv
  exact abs_le.mpr ⟨Int.le_ediv_of_mul_le (by linarith) (by linarith), Int.ediv_le_of_le_mul (by linarith) (by linarith)⟩

/-- The rescaled sum of two products fits `ACC_W` bits (40_scaled_complex.md R99). -/
theorem floorShift_fits {c : Params} (hc : c.Legal) {m : Nat} (hm : 1 ≤ m) {v : Int}
    (hv : |v| ≤ 2 ^ (c.sampleW + c.log2Amax) + 2 ^ (c.sampleW + c.log2Amax)) : fits c.accW (floorShift v m) := by
  obtain ⟨-, -, -, -, hacc⟩ := hc
  have hpow : (2 : Int) ^ (c.sampleW + c.log2Amax) < 2 ^ (c.accW - 1) := pow_lt_pow_right₀ one_lt_two (by omega)
  obtain ⟨hlow, hhigh⟩ := abs_le.mp (abs_floorShift_le hm hv)
  push_cast [fits]
  constructor <;> linarith

theorem crsh_cmul_fitsAcc {c : Params} (hc : c.Legal) {m : Nat} (hm : 1 ≤ m) {o w : ScaledComplex}
    (ho : FitsTap c o) (hw : fits c.twW w.re ∧ fits c.twW w.im) : FitsAcc c (crsh (cmul o w) m) :=
  ⟨floorShift_fits hc hm ((abs_sub _ _).trans
      (add_le_add (abs_mul_le_of_fits hc ho.1 hw.1) (abs_mul_le_of_fits hc ho.2 hw.2))),
    floorShift_fits hc hm ((abs_add_le _ _).trans
      (add_le_add (abs_mul_le_of_fits hc ho.1 hw.2) (abs_mul_le_of_fits hc ho.2 hw.1)))⟩

namespace DataOk

variable {s t : State}

/-- The stored values are those of the memories and the operand registers. -/
theorem of_frame (h : DataOk s) (hcfg : t.cfg = s.cfg) (hmem : t.mem = s.mem) (hopnd : t.opnd = s.opnd) : DataOk t where
  legal := hcfg ▸ h.legal
  mem := by rw [hcfg, hmem]; exact h.mem
  opnd := by rw [OperandsOk, hcfg, hopnd]; exact h.opnd

theorem load_fits (h : DataOk s) (sp : Space) (i : Nat) : fits (Params.spaceW s.cfg sp) (load s sp i) := by
  unfold load
  split
  · next v hv => exact ((h.mem sp).2 _ (mem_of_find hv)).2
  · exact signedLow_fits _ (one_le_spaceW h.legal sp)

theorem setMem (h : DataOk s) {sp : Space} {m : Memory} (hm : MemoryOk s.cfg sp m) : DataOk (s.setMem sp m) := by
  obtain ⟨hcfg, -, -, -, hopnd, -⟩ := setMem_frame s sp m
  refine ⟨hcfg ▸ h.legal, fun sq => ?_, by rw [OperandsOk, hcfg, hopnd]; exact h.opnd⟩
  rw [hcfg]
  by_cases hsq : sq = sp
  · subst hsq
    rwa [setMem_mem_self]
  · rw [setMem_mem_ne s m hsq]
    exact h.mem sq

theorem put (h : DataOk s) {sp : Space} {i : Nat} {v : Int} (hi : i < Params.spaceWords s.cfg sp)
    (hv : fits (Params.spaceW s.cfg sp) v) : DataOk (put s sp i v) :=
  h.setMem (memoryOk_write (h.mem sp) hi hv)

/-- The operand registers of a butterfly (10_state.md R29, 40_scaled_complex.md R99). -/
theorem setOpnd_latch (h : DataOk s) {m : Nat} (hm : 1 ≤ m) {w : ScaledComplex} {z P : Nat} (hw : lookup s z P = some w)
    (a b : Nat) : DataOk (s.setOpnd (latch s a b m w)) where
  legal := h.legal
  mem := h.mem
  opnd := by
    obtain ⟨-, rfl⟩ := lookup_eq_some hw
    obtain ⟨-, -, -, -, hacc⟩ := h.legal
    have tap : ∀ {v}, fits s.cfg.sampleW v → fits s.cfg.accW v := fun hv => fits_mono hv (by omega)
    have entry : ∀ i, fits s.cfg.accW (load s .tw i) := fun i =>
      fits_mono (h.load_fits .tw i) (show s.cfg.log2Amax + 2 ≤ s.cfg.accW by omega)
    exact ⟨⟨tap (h.load_fits .re a), tap (h.load_fits .im a)⟩, ⟨tap (h.load_fits .re b), tap (h.load_fits .im b)⟩,
      ⟨entry _, entry _⟩, crsh_cmul_fitsAcc h.legal hm ⟨h.load_fits .re b, h.load_fits .im b⟩
        ⟨h.load_fits .tw _, h.load_fits .tw _⟩⟩

theorem butterfly {a b z p m : Nat} (h : DataOk s) (hm : 1 ≤ m) (ht : butterfly a b z p m s = .next t) : DataOk t := by
  obtain ⟨ha, hb, w, hw, hur, hui, hvr, hvi, rfl⟩ := butterfly_next ht
  refine DataOk.put (DataOk.put (DataOk.put (DataOk.put (h.setOpnd_latch hm hw a b) ?_ ?_) ?_ ?_) ?_ ?_) ?_ ?_
  all_goals simpa [Params.spaceWords, Params.spaceW]

theorem reorderAt (h : DataOk s) {N i : Nat} : DataOk (reorderAt N s i) := by
  unfold Machine.reorderAt
  split
  · next hlt =>
    have hn := passIndex_lt s i N
    exact (h.put (sp := .re) (hlt.trans hn) (h.load_fits .re _)).put (sp := .re) hn (h.load_fits .re i)
  · exact h

theorem reorder (h : DataOk s) (N : Nat) (l : List Nat) : DataOk (l.foldl (Machine.reorderAt N) s) := by
  induction l generalizing s with
  | nil => exact h
  | cons i l ih => exact ih h.reorderAt

end DataOk

/-! The part of the invariant about the flags, the table and the sequencer. -/

/-- The flags, the table descriptor, the table and the counters of SEQ agree (10_state.md R24 to R27). -/
structure ControlOk (s : State) : Prop where
  flags : FlagsOk s
  descriptor : DescriptorOk s
  table : TableOk s
  seq : SeqOk s
  counters : SeqFits s

theorem inv_iff {s : State} : Inv s ↔ DataOk s ∧ ControlOk s ∧ s.uop = none := by
  constructor
  · rintro ⟨hlegal, hre, him, htw, hflags, hdesc, htable, hseq, hcount, hopnd, huop⟩
    refine ⟨⟨hlegal, fun sp => ?_, hopnd⟩, ⟨hflags, hdesc, htable, hseq, hcount⟩, huop⟩
    cases sp with
    | re => exact hre
    | im => exact him
    | tw => exact htw
  · rintro ⟨hd, hc, huop⟩
    exact ⟨hd.legal, hd.mem .re, hd.mem .im, hd.mem .tw, hc.flags, hc.descriptor, hc.table, hc.seq, hc.counters, hd.opnd,
      huop⟩

/-! Bounds that a legal size gives. -/

theorem two_le_of_isSize {c : Params} {n : Nat} (h : isSize c n = true) : 2 ≤ n := by
  obtain ⟨m, hm, -, rfl⟩ := isSize_iff.mp h
  exact Nat.le_self_pow (by omega) 2

theorem log2_le_of_isSize {c : Params} {n : Nat} (h : isSize c n = true) : Nat.log2 n ≤ c.log2Amax := by
  obtain ⟨m, -, hle, rfl⟩ := isSize_iff.mp h
  rwa [Nat.log2_two_pow]

theorem lt_of_isSize {c : Params} {n : Nat} (h : isSize c n = true) : n < 2 ^ (c.log2Amax + 1) :=
  (le_amax_of_isSize h).trans_lt (Nat.pow_lt_pow_right Nat.one_lt_two (Nat.lt_succ_self _))

theorem depth_pos_of_isSize {c : Params} {n : Nat} (h : isSize c n = true) : 0 < depth n :=
  (two_le_of_isSize h).trans_lt' Nat.two_pos |>.trans_le (Nat.le_add_right _ _)

theorem depth_lt_of_isSize {c : Params} {n : Nat} (h : isSize c n = true) : depth n < 2 ^ (c.log2Amax + 1) := by
  have h2 := two_le_of_isSize h
  have hle : n ≤ 2 ^ c.log2Amax := le_amax_of_isSize h
  simp only [depth, quarterOffset, pow_succ]
  omega

/-- Every entry of the table has a word (20_memory.md R50). -/
theorem depth_le_of_isSize {c : Params} {n : Nat} (h : isSize c n = true) : depth n ≤ Params.spaceWords c .tw := by
  have hle := le_amax_of_isSize h
  simp only [Params.spaceWords, depth, quarterOffset]
  omega

theorem not_isSize_zero (c : Params) : isSize c 0 = false := by simp [isSize, isPow2]

theorem twiddleEntry_fits {c : Params} {n : Nat} (h : isSize c n = true) (i : Nat) : fits c.twW (twiddleEntry n i) := by
  have habs := abs_le.mp (abs_twiddleEntry_le n i)
  have hlt := lt_of_isSize h
  simp only [fits, Params.twW, show c.log2Amax + 2 - 1 = c.log2Amax + 1 from rfl]
  omega

/-! The flags, the table descriptor and the table. -/

/-- The error report (60_exceptions.md R211): the last two parts of `FlagsOk`. -/
abbrev ErrorOk (st : Status) : Prop :=
  (st.err = false → st.errCode = 0) ∧ (st.err = true → 1 ≤ st.errCode.toNat ∧ st.errCode.toNat ≤ 5)

theorem errorOk_of_none {st : Status} (he : st.err = false) (hcode : st.errCode = 0) : ErrorOk st :=
  ⟨fun _ => hcode, by simp [he]⟩

theorem Cause.code_range (c : Cause) : 1 ≤ c.code.toNat ∧ c.code.toNat ≤ 5 := by
  cases c <;> decide

section FlagsOk

variable {s : State}

theorem flagsOk_of_running (hbusy : s.status.busy = true) (hdone : s.status.done = false) (hph : s.seq.phase ≠ .idle)
    (herr : ErrorOk s.status) : FlagsOk s :=
  ⟨by simp [hbusy, hph], by simp [hdone], herr⟩

theorem flagsOk_of_stopped (hbusy : s.status.busy = false) (hph : s.seq.phase = .idle) (herr : ErrorOk s.status) :
    FlagsOk s :=
  ⟨by simp [hbusy, hph], by simp [hbusy], herr⟩

end FlagsOk

theorem descriptorOk_of_none {s : State} (hv : s.status.tableValid = false) (hA : s.tableA = 0) : DescriptorOk s := by
  simp [DescriptorOk, hv, hA, not_isSize_zero]

theorem descriptorOk_of_valid {s : State} (hv : s.status.tableValid = true) (hA : isSize s.cfg s.tableA = true) :
    DescriptorOk s := by
  have h2 := two_le_of_isSize hA
  refine ⟨by simp [hv, hA], by simp [hv]; omega⟩

/-- A table one entry longer. -/
theorem tableHolds_write {tw : Memory} {A n : Nat} (h : TableHolds tw A n) :
    TableHolds (tw.write n (twiddleEntry A n)) A (n + 1) := by
  intro i hi
  rw [find_write]
  split
  · next hin => rw [hin]
  · exact h i (by omega)

/-! What the counters have to be in each phase is asked of that phase alone. -/

/-- The counters inside a stage of `GENERAL` (44_butterfly_engine.md R155, R159, R160), the bound of the tap index apart. -/
structure StageCounters (q : Seq) : Prop where
  stage : q.g + 2 ≤ q.m
  group : q.k = 2 ^ q.g
  halfTurn : q.p = 2 ^ (q.g + 1)
  count : q.cnt < q.k
  twiddle : q.z = 2 * q.cnt
  tap : q.i % (4 * q.k) = 2 * q.cnt

theorem xformOk_setSeq {s : State} {q : Seq} (h : XformOk s) (hn : q.n = s.seq.n) (hm : q.m = s.seq.m) :
    XformOk (s.setSeq q) := by
  simpa [XformOk, SizeOk, hn, hm] using h

section SeqOk

variable {s : State}

theorem seqOk_of_idle (hph : s.seq.phase = .idle) : SeqOk s := by
  simp [SeqOk, hph]

theorem seqOk_of_building (hph : s.seq.phase = .building) (hsize : SizeOk s) (hv : s.status.tableValid = false)
    (hi : s.seq.i < depth s.seq.n) (htw : TableHolds s.tw s.seq.n s.seq.i) : SeqOk s := by
  simp only [SeqOk, hph, reduceCtorEq, false_implies, true_implies, and_true]
  exact ⟨hsize, hv, hi, htw⟩

theorem seqOk_of_permute (hph : s.seq.phase = .permute) (hx : XformOk s) : SeqOk s := by
  simp only [SeqOk, hph, reduceCtorEq, false_implies, true_implies, and_true, true_and]
  exact hx

theorem seqOk_of_stage0 (hph : s.seq.phase = .stage0) (hx : XformOk s) (heven : s.seq.i % 2 = 0)
    (hi : s.seq.i + 2 ≤ s.seq.n) : SeqOk s := by
  simp only [SeqOk, hph, reduceCtorEq, false_implies, true_implies, and_true, true_and]
  exact ⟨hx, heven, hi⟩

theorem seqOk_of_general (hph : s.seq.phase = .general) (hx : XformOk s) (hq : StageCounters s.seq)
    (hin : s.seq.i + 3 ≤ s.seq.n) : SeqOk s := by
  simp only [SeqOk, hph, reduceCtorEq, false_implies, true_implies, true_and]
  exact ⟨hx, hq.stage, hq.group, hq.halfTurn, hq.count, hq.twiddle, hq.tap, hin⟩

theorem seqOk_general (h : SeqOk s) (hph : s.seq.phase = .general) :
    XformOk s ∧ StageCounters s.seq ∧ s.seq.i + 3 ≤ s.seq.n := by
  obtain ⟨-, -, -, hgeneral⟩ := h
  obtain ⟨hx, hg, hk, hp, hcnt, hz, hi, hin⟩ := hgeneral hph
  exact ⟨hx, ⟨hg, hk, hp, hcnt, hz, hi⟩, hin⟩

end SeqOk

/-! The counters of `GENERAL`. -/

/-- The registers of SEQ are wide enough for the counters of every stage (10_state.md R26). -/
theorem StageCounters.bounds {c : Params} {q : Seq} (h : StageCounters q) (hsize : isSize c q.n = true)
    (hm : q.m = Nat.log2 q.n) : 4 * q.k ≤ q.n ∧ q.n ≤ 2 ^ c.log2Amax ∧ q.p = 2 * q.k ∧ q.z < q.p := by
  obtain ⟨hg, hk, hp, hcnt, hz, -⟩ := h
  have hpk : q.p = 2 * q.k := by rw [hp, hk, pow_succ']
  refine ⟨?_, le_amax_of_isSize hsize, hpk, by omega⟩
  calc 4 * q.k = 2 ^ (q.g + 2) := by rw [hk]; ring
    _ ≤ 2 ^ Nat.log2 q.n := Nat.pow_le_pow_right Nat.two_pos (hm ▸ hg)
    _ = q.n := two_pow_log2_of_isSize hsize

theorem StageCounters.seqFits {s : State} (h : StageCounters s.seq) (hsize : SizeOk s) (hm : s.seq.m < 16)
    (hi : s.seq.i < 2 ^ (s.cfg.log2Amax + 1)) : SeqFits s := by
  obtain ⟨h4k, hn, hp, hz⟩ := h.bounds hsize.1 hsize.2
  obtain ⟨hg, -, -, hcnt, -, -⟩ := h
  simp only [SeqFits, pow_succ] at hi ⊢
  omega

/-- The end of a stage doubles two counters; the registers hold that too. -/
theorem StageCounters.seqFits_endStage {s : State} (h : StageCounters s.seq) (hsize : SizeOk s) (hm : s.seq.m < 16)
    (hi : s.seq.i < 2 ^ (s.cfg.log2Amax + 1)) : SeqFits (s.setSeq (endStage s.seq)) := by
  obtain ⟨h4k, hn, hp, hz⟩ := h.bounds hsize.1 hsize.2
  obtain ⟨hg, -, -, hcnt, -, -⟩ := h
  simp only [SeqFits, State.setSeq_seq, State.setSeq_cfg, endStage, pow_succ] at hi ⊢
  omega

/-- The counters of the first stage of `GENERAL` (44_butterfly_engine.md R159). -/
theorem stageCounters_startGeneral {q : Seq} (hm : 2 ≤ q.m) : StageCounters (startGeneral q) :=
  ⟨hm, rfl, rfl, Nat.one_pos, rfl, rfl⟩

/-- The counters at the start of the next stage (44_butterfly_engine.md R159). -/
theorem StageCounters.nextStage {q : Seq} (h : StageCounters q) (hmore : q.g + 2 < q.m) :
    StageCounters (nextStage (endStage q)) := by
  obtain ⟨-, hk, hp, hcnt, -, -⟩ := h
  refine ⟨by simp [Machine.nextStage, endStage]; omega, ?_, ?_, ?_, rfl, ?_⟩
  · show 2 * q.k = 2 ^ (q.g + 1)
    rw [hk, pow_succ']
  · show 2 * q.p = 2 ^ (q.g + 1 + 1)
    rw [hp, pow_succ' _ (q.g + 1)]
  · show 0 < 2 * q.k
    omega
  · exact Nat.zero_mod _

/-- The twiddle index after a dual butterfly: two steps on, from the start again at the end of a group
(44_butterfly_engine.md R158, R160). -/
theorem nextZ_nextZ (k cnt : Nat) :
    nextZ (nextZ (2 * cnt) (2 * k)) (2 * k) = if cnt + 1 = k then 0 else 2 * (cnt + 1) := by
  have hodd : nextZ (2 * cnt) (2 * k) = 2 * cnt + 1 := if_neg (by omega)
  rw [hodd, nextZ]
  split_ifs <;> omega

/-- The counters after a dual butterfly (44_butterfly_engine.md R159): one pair further in the group, or at the next group. -/
theorem StageCounters.advanceLoop {q : Seq} (h : StageCounters q) :
    StageCounters (advanceLoop q (nextZ (nextZ q.z q.p) q.p)) := by
  obtain ⟨hg, hk, hp, hcnt, hz, hi⟩ := h
  have hpk : q.p = 2 * q.k := by rw [hp, hk, pow_succ']
  have hdiv : q.i = 4 * q.k * (q.i / (4 * q.k)) + 2 * q.cnt := by rw [← hi, Nat.div_add_mod]
  rw [hz, hpk, nextZ_nextZ, Machine.advanceLoop]
  split
  · next hlast =>
    have hnext : q.i + 2 + 2 * q.k = 4 * q.k * (q.i / (4 * q.k)) + 4 * q.k := by omega
    exact ⟨hg, hk, hp, by show 0 < q.k; omega, rfl, by show (q.i + 2 + 2 * q.k) % (4 * q.k) = 0; rw [hnext]; simp⟩
  · next hmore =>
    have hnext : q.i + 2 = 4 * q.k * (q.i / (4 * q.k)) + 2 * (q.cnt + 1) := by omega
    refine ⟨hg, hk, hp, by show q.cnt + 1 < q.k; omega, rfl, ?_⟩
    show (q.i + 2) % (4 * q.k) = 2 * (q.cnt + 1)
    rw [hnext, Nat.mul_add_mod, Nat.mod_eq_of_lt (by omega)]

/-- What a dual butterfly leaves of SEQ as it was. -/
theorem advanceLoop_frame (q : Seq) (z : Nat) :
    (advanceLoop q z).phase = q.phase ∧ (advanceLoop q z).n = q.n ∧ (advanceLoop q z).m = q.m ∧
    (advanceLoop q z).k = q.k := by
  unfold advanceLoop
  split <;> exact ⟨rfl, rfl, rfl, rfl⟩

theorem advanceLoop_i_le (q : Seq) (z : Nat) : (advanceLoop q z).i ≤ q.i + 2 + 2 * q.k := by
  unfold advanceLoop
  split <;> simp

namespace ControlOk

variable {s t : State}

/-- What the control part depends on. -/
theorem of_frame (h : ControlOk s) (hcfg : t.cfg = s.cfg) (hstatus : t.status = s.status) (hbase : t.tableA = s.tableA)
    (htw : t.tw = s.tw) (hseq : t.seq = s.seq) : ControlOk t := by
  obtain ⟨hf, hd, ht, hs, hc⟩ := h
  constructor
  · rwa [FlagsOk, hstatus, hseq]
  · rwa [DescriptorOk, hcfg, hstatus, hbase]
  · rwa [TableOk, hstatus, hbase, htw]
  · rwa [SeqOk, SizeOk, XformOk, SizeOk, hcfg, hstatus, hbase, htw, hseq]
  · rwa [SeqFits, hcfg, hseq]

theorem phase_eq_idle (h : ControlOk s) (hb : s.status.busy = false) : s.seq.phase = .idle := by
  have hbusy := h.flags.1
  simpa [hb] using hbusy

/-! What the Host can do. -/

theorem reject (h : ControlOk s) (c : Cause) : ControlOk (reject c s) := by
  rcases reject_eq c s with ⟨-, hr⟩ | ⟨-, hr⟩ <;> rw [hr]
  · exact h
  · obtain ⟨⟨hbusy, hdone, -, -⟩, hd, ht, hs, hc⟩ := h
    exact ⟨⟨hbusy, hdone, by simp, fun _ => c.code_range⟩, hd, ht, hs, hc⟩

theorem acceptBuild (h : ControlOk s) (hc : s.cfg.Legal) {A : Nat} (hA : isSize s.cfg A = true) :
    ControlOk (acceptBuild A s) := by
  obtain ⟨⟨-, -, herr⟩, -, -, -, hcount⟩ := h
  obtain ⟨-, hL, -⟩ := hc
  obtain ⟨-, -, hg, hk, hp, -, hcnt, hz⟩ := hcount
  have hm := log2_le_of_isSize hA
  have hdepth : 0 < depth A := depth_pos_of_isSize hA
  refine ⟨flagsOk_of_running rfl rfl (Phase.noConfusion ·) herr,
    descriptorOk_of_none rfl rfl, fun hv => absurd hv Bool.false_ne_true, ?_, ?_⟩
  · exact seqOk_of_building rfl ⟨hA, rfl⟩ rfl hdepth fun i hi => absurd hi (Nat.not_lt_zero i)
  · exact ⟨lt_of_isSize hA, by show Nat.log2 A < 16; omega, hg, hk, hp, Nat.two_pow_pos _, hcnt, hz⟩

theorem acceptXform (h : ControlOk s) (hc : s.cfg.Legal) {N : Nat} (hN : isSize s.cfg N = true)
    (hv : s.status.tableValid = true) (hA : s.tableA = N) : ControlOk (acceptXform N s) := by
  obtain ⟨⟨-, -, herr⟩, hd, ht, -, hcount⟩ := h
  obtain ⟨-, hL, -⟩ := hc
  obtain ⟨-, -, hg, hk, hp, hi, hcnt, hz⟩ := hcount
  have hm := log2_le_of_isSize hN
  refine ⟨flagsOk_of_running rfl rfl (Phase.noConfusion ·) herr, hd, ht,
    seqOk_of_permute rfl ⟨⟨hN, rfl⟩, hv, hA⟩, ?_⟩
  exact ⟨lt_of_isSize hN, by show Nat.log2 N < 16; omega, hg, hk, hp, hi, hcnt, hz⟩

theorem acceptRelease (h : ControlOk s) (hb : s.status.busy = false) : ControlOk (acceptRelease s) := by
  have hph := h.phase_eq_idle hb
  obtain ⟨⟨-, -, herr⟩, -, -, -, hcount⟩ := h
  exact ⟨flagsOk_of_stopped hb hph herr, descriptorOk_of_none rfl rfl, fun hv => absurd hv Bool.false_ne_true,
    seqOk_of_idle hph, hcount⟩

theorem acknowledge (h : ControlOk s) (hb : s.status.busy = false) : ControlOk (acknowledge s) := by
  have hph := h.phase_eq_idle hb
  obtain ⟨-, hd, ht, -, hcount⟩ := h
  exact ⟨flagsOk_of_stopped hb hph (errorOk_of_none rfl rfl), hd, ht, seqOk_of_idle hph, hcount⟩

/-! How the sequencer goes on. -/

/-- A change of SEQ with which a running command goes on. -/
theorem setSeq (h : ControlOk s) {q : Seq} (hph : s.seq.phase ≠ .idle) (hq : q.phase ≠ .idle) (hseq : SeqOk (s.setSeq q))
    (hcount : SeqFits (s.setSeq q)) : ControlOk (s.setSeq q) := by
  obtain ⟨⟨hbusy, hdone, herr⟩, hd, ht, -, -⟩ := h
  exact ⟨⟨by simpa [hq, hph] using hbusy, hdone, herr⟩, hd, ht, hseq, hcount⟩

theorem completeXform (h : ControlOk s) {q : Seq} (hcount : SeqFits (s.setSeq q)) :
    ControlOk (completeXform (s.setSeq q)) := by
  obtain ⟨⟨-, -, herr⟩, hd, ht, -, -⟩ := h
  exact ⟨flagsOk_of_stopped rfl rfl herr, hd, ht, seqOk_of_idle rfl, hcount⟩

theorem afterTwgen (h : ControlOk s) (hph : s.seq.phase = .building) (htw : TableHolds s.tw s.seq.n (s.seq.i + 1)) :
    ControlOk (afterTwgen s) := by
  obtain ⟨hbuild, -⟩ := h.seq
  obtain ⟨hsize, hv, hi, -⟩ := hbuild hph
  have hdepth := depth_lt_of_isSize hsize.1
  have hcount : SeqFits (s.setSeq { s.seq with i := s.seq.i + 1 }) := by
    obtain ⟨hn, hm, hg, hk, hp, -, hcnt, hz⟩ := h.counters
    exact ⟨hn, hm, hg, hk, hp, by show s.seq.i + 1 < 2 ^ (s.cfg.log2Amax + 1); omega, hcnt, hz⟩
  unfold Machine.afterTwgen
  dsimp only
  split
  · next hmore => exact h.setSeq (by simp [hph]) (by simp [hph]) (seqOk_of_building hph hsize hv hmore htw) hcount
  · next hlast =>
    have hall : s.seq.i + 1 = depth s.seq.n := by omega
    obtain ⟨⟨-, -, herr⟩, -⟩ := h
    exact ⟨flagsOk_of_stopped rfl rfl herr, descriptorOk_of_valid rfl hsize.1,
      fun _ => hall ▸ htw, seqOk_of_idle rfl, hcount⟩

theorem afterBrpass (h : ControlOk s) (hph : s.seq.phase = .permute) : ControlOk (afterBrpass s) := by
  obtain ⟨-, hpermute, -⟩ := h.seq
  have hx := hpermute hph
  have h2 : 0 + 2 ≤ s.seq.n := by simpa using two_le_of_isSize hx.1.1
  obtain ⟨hn, hm, hg, hk, hp, -, hcnt, hz⟩ := h.counters
  exact h.setSeq (by simp [hph]) (by simp) (seqOk_of_stage0 rfl hx rfl h2)
    ⟨hn, hm, hg, hk, hp, Nat.two_pow_pos _, hcnt, hz⟩

theorem afterPair0 (h : ControlOk s) (hph : s.seq.phase = .stage0) : ControlOk (afterPair0 s) := by
  obtain ⟨-, -, hstage0, -⟩ := h.seq
  obtain ⟨hx, heven, hi⟩ := hstage0 hph
  obtain ⟨hsize, hlog⟩ := hx.1
  have hcount : SeqFits (s.setSeq { s.seq with i := s.seq.i + 2 }) := by
    obtain ⟨hn, hm, hg, hk, hp, -, hcnt, hz⟩ := h.counters
    exact ⟨hn, hm, hg, hk, hp, hi.trans_lt hn, hcnt, hz⟩
  unfold Machine.afterPair0
  split_ifs with hmore hgeneral
  · refine h.setSeq (by simp [hph]) (by simp [hph]) (seqOk_of_stage0 hph hx ?_ ?_) hcount
    · show (s.seq.i + 2) % 2 = 0
      omega
    · show s.seq.i + 2 + 2 ≤ s.seq.n
      omega
  · have hstage := stageCounters_startGeneral hgeneral
    have h4 : 4 * 1 ≤ s.seq.n := (hstage.bounds hsize hlog).1
    obtain ⟨-, hm, -⟩ := h.counters
    exact h.setSeq (by simp [hph]) (by simp [startGeneral])
      (seqOk_of_general rfl hx hstage (by show 0 + 3 ≤ s.seq.n; omega))
      (hstage.seqFits (s := s.setSeq _) hx.1 hm (Nat.two_pow_pos _))
  · exact h.completeXform hcount

theorem afterDbfly (h : ControlOk s) (hph : s.seq.phase = .general)
    (hres : s.result = .index (nextZ (nextZ s.seq.z s.seq.p) s.seq.p)) : ControlOk (afterDbfly s) := by
  obtain ⟨hx, hstage, hin⟩ := seqOk_general h.seq hph
  obtain ⟨-, hm, -⟩ := h.counters
  obtain ⟨h4k, hn, hp, -⟩ := hstage.bounds hx.1.1 hx.1.2
  have hcnt := hstage.count
  have hstage' := hstage.advanceLoop
  have hi := advanceLoop_i_le s.seq (nextZ (nextZ s.seq.z s.seq.p) s.seq.p)
  obtain ⟨hqph, hqn, hqm, hqk⟩ := advanceLoop_frame s.seq (nextZ (nextZ s.seq.z s.seq.p) s.seq.p)
  unfold Machine.afterDbfly
  rw [hres, Result.toIndex]
  generalize advanceLoop s.seq (nextZ (nextZ s.seq.z s.seq.p) s.seq.p) = q at *
  have hx' : XformOk (s.setSeq q) := xformOk_setSeq hx hqn hqm
  have hi' : q.i < 2 ^ (s.cfg.log2Amax + 1) := by
    rw [pow_succ]
    omega
  dsimp only
  split_ifs with hmore hnext
  · exact h.setSeq (by simp [hph]) (by simp [hqph, hph]) (seqOk_of_general (hqph.trans hph) hx' hstage' hmore)
      (hstage'.seqFits (s := s.setSeq q) hx'.1 (hqm ▸ hm) hi')
  · have hstage'' := hstage'.nextStage hnext
    exact h.setSeq (by simp [hph]) (by simp [nextStage, endStage, hqph, hph])
      (seqOk_of_general (hqph.trans hph) hx' hstage'' (by show 0 + 3 ≤ q.n; omega))
      (hstage''.seqFits (s := s.setSeq _) hx'.1 (hqm ▸ hm) (Nat.two_pow_pos _))
  · exact h.completeXform (hstage'.seqFits_endStage (s := s.setSeq q) hx'.1 (hqm ▸ hm) hi')

end ControlOk

/-! The invariant. -/

theorem inv_atEdge {s : State} (rest : List PortCycle) (h : Inv s) : Inv (atEdge s rest) := h

/-- The state after reset, under any legal configuration (10_state.md R36). -/
theorem inv_reset {c : Params} (hc : c.Legal) : Inv { State.reset with cfg := c } := by
  have hzero : FitsAcc c .zero := ⟨by simp [fits, ScaledComplex.zero], by simp [fits, ScaledComplex.zero]⟩
  refine inv_iff.mpr ⟨⟨hc, fun sp => ?_, hzero, hzero, hzero, hzero⟩,
    ⟨flagsOk_of_stopped rfl rfl (errorOk_of_none rfl rfl), descriptorOk_of_none rfl rfl, fun hv => absurd hv Bool.false_ne_true, seqOk_of_idle rfl, ?_⟩, rfl⟩
  · cases sp <;> exact memoryOk_nil c _
  · simp [SeqFits, State.reset]

theorem HostEffect.inv {s t : State} (ht : HostEffect s t) (h : Inv s) : Inv t := by
  obtain ⟨hd, hc, huop⟩ := inv_iff.mp h
  have hdrop : DataOk (s.setMem .tw []) := hd.setMem (memoryOk_nil s.cfg .tw)
  refine inv_iff.mpr ?_
  cases ht with
  | nothing => exact ⟨hd, hc, huop⟩
  | rejected c => exact ⟨hd.of_frame rfl rfl rfl, hc.reject c, huop⟩
  | read d => exact ⟨hd.of_frame rfl rfl rfl, hc.of_frame rfl rfl rfl rfl rfl, huop⟩
  | @sample sp i d hb hsp hi =>
    have hS := one_le_spaceW hd.legal .re
    cases sp with
    | tw => exact absurd rfl hsp
    | re => exact ⟨hd.put hi (signedLow_fits d hS), hc.of_frame rfl rfl rfl rfl rfl, huop⟩
    | im => exact ⟨hd.put hi (signedLow_fits d hS), hc.of_frame rfl rfl rfl rfl rfl, huop⟩
  | build hb hA => exact ⟨hdrop.of_frame rfl rfl rfl, hc.acceptBuild hd.legal hA, huop⟩
  | xform hb hN hv hA => exact ⟨hd.of_frame rfl rfl rfl, hc.acceptXform hd.legal hN hv hA, huop⟩
  | release hb hv => exact ⟨hdrop.of_frame rfl rfl rfl, hc.acceptRelease hb, huop⟩
  | clrstat hb => exact ⟨hd.of_frame rfl rfl rfl, hc.acknowledge hb, huop⟩

/-- The advance of SEQ touches no stored value. -/
theorem DataOk.advance {s : State} (h : DataOk s) (ph : Phase) : DataOk (advance ph s) := by
  rw [advance_frame]
  exact h.of_frame rfl rfl rfl

section Engine

variable {s u : State}

/-- `BUILDING`: the next entry of the table is made (41_twiddle_rom.md R115). -/
theorem engine_building (hd : DataOk s) (hc : ControlOk s) (hph : s.seq.phase = .building)
    (hu : execTwgen s.seq.n s.seq.i s = .next u) : DataOk u ∧ ControlOk (afterTwgen u) := by
  obtain ⟨hflags, hdesc, -, ⟨hbuild, -⟩, hcount⟩ := hc
  obtain ⟨hsize, hv, hi, htw⟩ := hbuild hph
  have hword : s.seq.i < Params.spaceWords s.cfg .tw := hi.trans_le (depth_le_of_isSize hsize.1)
  rw [execTwgen_next s.seq.n hword, generatedEntry_of_isSize _ hsize.1] at hu
  injection hu with hu
  subst hu
  have htw' := tableHolds_write htw
  have hu' : ControlOk (put s .tw s.seq.i (twiddleEntry s.seq.n s.seq.i)) :=
    ⟨hflags, hdesc, fun hvalid => absurd (hv.symm.trans hvalid) Bool.false_ne_true,
      seqOk_of_building hph hsize hv hi fun j hj => htw' j (Nat.lt_succ_of_lt hj), hcount⟩
  exact ⟨hd.put hword (twiddleEntry_fits hsize.1 _), hu'.afterTwgen hph htw'⟩

/-- `PERMUTE`: the reorder pass (43_bit_reversal.md R137). -/
theorem engine_permute (hd : DataOk s) (hc : ControlOk s) (hph : s.seq.phase = .permute)
    (hu : execBrpass s.seq.n s = .next u) : DataOk u ∧ ControlOk (afterBrpass u) := by
  rw [execBrpass] at hu
  injection hu with hu
  subst hu
  refine ⟨hd.reorder s.seq.n _, ?_⟩
  rw [reorder_frame]
  exact .afterBrpass (hc.of_frame rfl rfl rfl rfl rfl) hph

/-- `STAGE0`: a combine of two taps (44_butterfly_engine.md R153, R154). -/
theorem engine_stage0 (hd : DataOk s) (hc : ControlOk s) (hph : s.seq.phase = .stage0)
    (hu : execPair0 s.seq.i s = .next u) : DataOk u ∧ ControlOk (afterPair0 u) := by
  obtain ⟨hi, hsum, hdiff, rfl⟩ := execPair0_next hu
  exact ⟨(hd.put (sp := .re) (Nat.lt_of_succ_lt hi) hsum).put (sp := .re) hi hdiff,
    .afterPair0 (hc.of_frame rfl rfl rfl rfl rfl) hph⟩

/-- `GENERAL`: a dual butterfly (44_butterfly_engine.md R158, R159). -/
theorem engine_general (hd : DataOk s) (hc : ControlOk s) (hph : s.seq.phase = .general)
    (hu : execDbfly s.seq.i (2 * s.seq.k) s.seq.z s.seq.p s.seq.m s = .next u) : DataOk u ∧ ControlOk (afterDbfly u) := by
  obtain ⟨-, hstage, -⟩ := seqOk_general hc.seq hph
  have hm : 1 ≤ s.seq.m := (Nat.le_add_left 1 _).trans hstage.stage
  obtain ⟨s1, s2, h1, h2, rfl⟩ := execDbfly_next hu
  have hd2 := (hd.butterfly hm h1).butterfly hm h2
  have hc2 : ControlOk { s2 with result := .index (nextZ (nextZ s.seq.z s.seq.p) s.seq.p) } := by
    rw [butterfly_frame h2, butterfly_frame h1]
    exact hc.of_frame rfl rfl rfl rfl rfl
  have hseq : s2.seq = s.seq := by rw [butterfly_frame h2, butterfly_frame h1]
  refine ⟨hd2.of_frame rfl rfl rfl, hc2.afterDbfly (hseq ▸ hph) ?_⟩
  show Result.index _ = Result.index _
  rw [hseq]

end Engine

theorem inv_engineOp {s t : State} (h : Inv s) (ht : engineOp s = .next t) : Inv t := by
  rcases engineOp_next ht with ⟨-, rfl⟩ | ⟨i, u, hi, hu, rfl⟩
  · exact h
  obtain ⟨hd, hc, huop⟩ := inv_iff.mp h
  obtain ⟨-, -, -, huop', -⟩ := exec_next_frame hu
  have hkeep : DataOk u ∧ ControlOk (advance s.seq.phase u) := by
    cases hph : s.seq.phase <;> simp only [nextOperation, hph, reduceCtorEq, Option.some.injEq] at hi <;> subst hi
    case building => exact engine_building hd hc hph hu
    case permute => exact engine_permute hd hc hph hu
    case stage0 => exact engine_stage0 hd hc hph hu
    case general => exact engine_general hd hc hph hu
  refine inv_iff.mpr ⟨hkeep.1.advance _, hkeep.2, ?_⟩
  rw [advance_frame]
  exact huop'.trans huop

/-- Settles O37: the Host's access keeps the invariant, an operation of the Engine keeps the stored values in their widths, and the
advance of SEQ takes the counters of one phase to those of the next. -/
theorem stepKeepsTheInvariant : Obligations.StepKeepsTheInvariant := by
  intro s t h hst
  rcases step_next hst with ⟨u, i, hu, -⟩ | ⟨-, c, rest, -, hedge⟩
  · obtain ⟨-, -, huop⟩ := inv_iff.mp h
    simp [huop] at hu
  · rcases portEdge_next hedge with ⟨-, rfl⟩ | ⟨-, u, hu, rfl | ⟨-, -, ht⟩⟩
    · exact inv_reset h.1
    · exact hu.inv (inv_atEdge rest h)
    · exact inv_engineOp (hu.inv (inv_atEdge rest h)) ht

/-- Settles O36: the reset state is the one of the default configuration, which is legal. -/
theorem resetMeetsTheInvariant : Obligations.ResetMeetsTheInvariant :=
  inv_reset (c := .default) (by decide)

end Sys2Proof.Machine
end

section
/-! PROOFS. The registers of the block: their reset values (10_state.md R36) and what the Host reads of them (R30 to R32). -/

namespace Sys2Proof.Machine

/-- Settles O8: every value stands in `State.reset`, and its memories list no word. -/
theorem resetLeavesTheStatedValues : Obligations.ResetLeavesTheStatedValues :=
  ⟨rfl, rfl, rfl, rfl, rfl, by decide, rfl, rfl, rfl, rfl, fun _ => ⟨rfl, rfl, rfl⟩⟩

/-! The register space of the address map (20_memory.md R53). -/

theorem addrSpace_of_lt {c : Params} {addr : Nat} (h : addr < 2 ^ (c.log2Amax + 1)) : addrSpace c addr = 0 := by
  rw [addrSpace, Nat.div_eq_of_lt h]

theorem addrOffset_of_lt {c : Params} {addr : Nat} (h : addr < 2 ^ (c.log2Amax + 1)) : addrOffset c addr = addr :=
  Nat.mod_eq_of_lt h

theorem target_cmd (c : Params) : target c 0 = .cmd := by
  have h := Nat.two_pow_pos (c.log2Amax + 1)
  simp only [target, addrSpace_of_lt h, addrOffset_of_lt h]

theorem target_status (c : Params) : target c 1 = .status := by
  have h : 1 < 2 ^ (c.log2Amax + 1) := Nat.one_lt_two_pow (by omega)
  simp only [target, addrSpace_of_lt h, addrOffset_of_lt h]

/-- The third register has an offset when there are two offset bits. -/
theorem target_tableA {c : Params} (hc : 1 ≤ c.log2Amax) : target c 2 = .tableA := by
  have h : 2 < 2 ^ (c.log2Amax + 1) := (show 2 < 2 ^ 2 by decide).trans_le (Nat.pow_le_pow_right Nat.two_pos (by omega))
  simp only [target, addrSpace_of_lt h, addrOffset_of_lt h]

/-- A bit appended below a word. -/
theorem toNat_append_ofBool {n : Nat} (x : BitVec n) (b : Bool) : (x ++ BitVec.ofBool b).toNat = 2 * x.toNat + b.toNat := by
  rw [BitVec.append_ofBool, BitVec.toNat_concat, mul_comm]

/-- The fields of the STATUS word (10_state.md R31). -/
theorem toNat_statusWord (st : Status) : st.word.toNat =
    st.busy.toNat + 2 * st.done.toNat + 4 * st.err.toNat + 8 * st.tableValid.toNat + 16 * st.errCode.toNat := by
  have hcode : ((0 : BitVec 24) ++ st.errCode).toNat = st.errCode.toNat :=
    (BitVec.toNat_append _ _).trans (by simp)
  rw [Status.word, toNat_append_ofBool, toNat_append_ofBool, toNat_append_ofBool, toNat_append_ofBool, hcode]
  ring

/-- Settles O48: the addresses 0, 1 and 2 are those of CMD, STATUS and TABLE_A, and each flag stands at its place in the word. -/
theorem registersReadAsLaidOut : Obligations.RegistersReadAsLaidOut := by
  intro s
  refine ⟨?_, fun hc => ?_, ?_⟩
  · simp only [hostRead, target_status, toNat_statusWord]
  · simp only [hostRead, target_tableA hc]
  · simp only [hostRead, target_cmd]

end Sys2Proof.Machine
end

section
/-! PROOFS. The memory map as the Host sees it (20_memory.md R50 to R57): what the addresses of the four spaces reach, what an idle
block reads and writes there, that a read has no side effect; and the operands with no word behind them. -/

namespace Sys2Proof.Machine

/-! The other spaces of the address map (20_memory.md R53). -/

theorem two_mul_amax (c : Params) : 2 * c.amax = 2 ^ (c.log2Amax + 1) := (pow_succ' 2 c.log2Amax).symm

/-- The two fields of the address of an offset of space `k`. -/
theorem addrFields_of_lt {c : Params} {off : Nat} (base k : Nat) (hk : k < 4) (hbase : base = k * (2 * c.amax))
    (hoff : off < 2 * c.amax) : addrSpace c (base + off) = k ∧ addrOffset c (base + off) = off := by
  subst hbase
  rw [two_mul_amax] at hoff ⊢
  refine ⟨?_, ?_⟩
  · rw [addrSpace, mul_comm k, Nat.mul_add_div (Nat.two_pow_pos _), Nat.div_eq_of_lt hoff, add_zero, Nat.mod_eq_of_lt hk]
  · rw [addrOffset, Nat.mul_add_mod', Nat.mod_eq_of_lt hoff]

theorem target_register_hole {c : Params} {off : Nat} (h3 : 3 ≤ off) (hoff : off < 2 * c.amax) : target c off = .hole := by
  rw [two_mul_amax] at hoff
  obtain ⟨n, rfl⟩ := Nat.exists_eq_add_of_le' h3
  simp only [target, addrSpace_of_lt hoff, addrOffset_of_lt hoff]

theorem target_re_space {c : Params} {off : Nat} (hoff : off < 2 * c.amax) :
    target c (2 * c.amax + off) = if off < c.amax then .re off else .hole := by
  obtain ⟨hspace, hoffset⟩ := addrFields_of_lt (2 * c.amax) 1 (by decide) (by omega) hoff
  simp only [target, hspace, hoffset]

theorem target_im_space {c : Params} {off : Nat} (hoff : off < 2 * c.amax) :
    target c (4 * c.amax + off) = if off < c.amax then .im off else .hole := by
  obtain ⟨hspace, hoffset⟩ := addrFields_of_lt (4 * c.amax) 2 (by decide) (by omega) hoff
  simp only [target, hspace, hoffset]

theorem target_tw_space {c : Params} {off : Nat} (hoff : off < 2 * c.amax) : target c (6 * c.amax + off) = .tw off := by
  obtain ⟨hspace, hoffset⟩ := addrFields_of_lt (6 * c.amax) 3 (by decide) (by omega) hoff
  simp only [target, hspace, hoffset]

/-! Words of RE and IM. -/

/-- The low bits of a word, read as a signed integer and put on the port, are its low bits sign-extended (20_memory.md R56). -/
theorem sext32_signedLow (W : Nat) (x : PortWord) : sext32 (signedLow W x) = (x.setWidth W).signExtend 32 := by
  rw [sext32, signedLow, BitVec.signExtend, BitVec.toInt_setWidth]

theorem readMemory_idle {s : State} (sp : Space) (i : Nat) (hb : s.status.busy = false) :
    readMemory sp i s = sext32 (load s sp i) := by
  simp [readMemory, hb]

/-- The word that the Host of an idle block stores, seen through a Host read (45_commands.md R186, R187), and the other words. -/
theorem put_signedLow_readsBack {s : State} (sp : Space) (i W : Nat) (d : PortWord) (hb : s.status.busy = false) :
    readMemory sp i (put s sp i (signedLow W d)) = (d.setWidth W).signExtend 32 ∧
      ∀ j, j ≠ i → ((put s sp i (signedLow W d)).mem sp).find j = (s.mem sp).find j := by
  refine ⟨?_, fun j hj => ?_⟩
  · rw [readMemory_idle sp i (by simpa using hb), load_put, if_pos ⟨rfl, rfl⟩, sext32_signedLow]
  · rw [find_mem_put, if_neg fun h => hj h.2]

section sample

variable {s : State} {addr i : Nat}

theorem hostWrite_re_idle (d : PortWord) (h : target s.cfg addr = .re i) (hb : s.status.busy = false) :
    hostWrite addr d s = .next (put s .re i (signedLow s.cfg.sampleW d)) := by
  simp [hostWrite, h, writeSample, hb]

theorem hostWrite_im_idle (d : PortWord) (h : target s.cfg addr = .im i) (hb : s.status.busy = false) :
    hostWrite addr d s = .next (put s .im i (signedLow s.cfg.sampleW d)) := by
  simp [hostWrite, h, writeSample, hb]

theorem hostRead_re (h : target s.cfg addr = .re i) : hostRead addr s = readMemory .re i s := by
  simp only [hostRead, h]

theorem hostRead_im (h : target s.cfg addr = .im i) : hostRead addr s = readMemory .im i s := by
  simp only [hostRead, h]

end sample

/-- Settles O44: the address reaches word `i` of its space, where the store keeps the low bits and a read extends them. -/
theorem sampleReadsBackAsWritten : Obligations.SampleReadsBackAsWritten := by
  intro s i d _ hb hi
  have hre : target s.cfg (2 * s.cfg.amax + i) = .re i := by rw [target_re_space (by omega), if_pos hi]
  have him : target s.cfg (4 * s.cfg.amax + i) = .im i := by rw [target_im_space (by omega), if_pos hi]
  obtain ⟨hreadRe, hframeRe⟩ := put_signedLow_readsBack .re i s.cfg.sampleW d hb
  obtain ⟨hreadIm, hframeIm⟩ := put_signedLow_readsBack .im i s.cfg.sampleW d hb
  exact ⟨⟨_, hostWrite_re_idle d hre hb, (hostRead_re (s := put s .re i _) hre).trans hreadRe, hframeRe, rfl⟩,
    ⟨_, hostWrite_im_idle d him hb, (hostRead_im (s := put s .im i _) him).trans hreadIm, hframeIm, rfl⟩⟩

/-! Holes and read-only addresses (20_memory.md R55). -/

theorem hostRead_hole {s : State} {addr : Nat} (h : target s.cfg addr = .hole) : hostRead addr s = 0 := by
  simp only [hostRead, h]

/-- The targets whose writes are ignored, busy or not. -/
theorem hostWrite_ignored {s : State} {addr : Nat} (d : PortWord)
    (h : target s.cfg addr = .hole ∨ target s.cfg addr = .status ∨ target s.cfg addr = .tableA ∨ ∃ i, target s.cfg addr = .tw i) :
    hostWrite addr d s = .next s := by
  rcases h with h | h | h | ⟨i, h⟩ <;> simp only [hostWrite, h]

/-- While idle, `TW` reads 0 where there is no valid table or the table has no such entry. -/
theorem readTable_hole {s : State} {i : Nat} (hb : s.status.busy = false)
    (h : s.status.tableValid = false ∨ depth s.tableA ≤ i) : readTable i s = 0 := by
  rcases h with hinvalid | hdepth
  · simp [readTable, hb, hinvalid]
  · simp [readTable, hb, Nat.not_lt.mpr hdepth]

/-- Settles O45: above `AMAX` words, and above the three registers, the address map has holes; `TW` takes no writes. -/
theorem holesReadZeroAndIgnoreWrites : Obligations.HolesReadZeroAndIgnoreWrites := by
  intro s off d hc hb hoff
  have htw : target s.cfg (6 * s.cfg.amax + off) = .tw off := target_tw_space hoff
  refine ⟨fun h3 => ?_, fun hmax => ?_, fun hempty => ?_, hostWrite_ignored d (.inr (.inr (.inr ⟨off, htw⟩))),
    hostWrite_ignored d (.inr (.inl (target_status s.cfg))), hostWrite_ignored d (.inr (.inr (.inl (target_tableA hc.1))))⟩
  · have hreg := target_register_hole h3 hoff
    exact ⟨hostRead_hole hreg, hostWrite_ignored d (.inl hreg)⟩
  · have hre : target s.cfg (2 * s.cfg.amax + off) = .hole := by rw [target_re_space hoff, if_neg (by omega)]
    have him : target s.cfg (4 * s.cfg.amax + off) = .hole := by rw [target_im_space hoff, if_neg (by omega)]
    exact ⟨hostRead_hole hre, hostWrite_ignored d (.inl hre), hostRead_hole him, hostWrite_ignored d (.inl him)⟩
  · simp only [hostRead, htw, readTable_hole hb hempty]

/-! Reads (20_memory.md R57). -/

theorem hostAccess_read {c : PortCycle} (s : State) (hsel : c.sel = true) (hwe : c.we = false) :
    hostAccess c s = .next (s.setRdata (some (hostRead c.addr s))) := by
  simp [hostAccess, hsel, hwe]

/-- An edge at which no operation is made, because the Engine is idle or the schedule holds it, is the Host's access alone. -/
theorem portEdge_access {c : PortCycle} (s : State) (hrst : c.rst = false) (hno : s.status.busy = false ∨ c.engine = false) :
    portEdge c s = hostAccess c s := by
  have hheld : ¬ (s.status.busy = true ∧ c.engine = true) := by rcases hno with h | h <;> simp [h]
  obtain ⟨t, ht⟩ := hostAccess_next c s
  simp only [portEdge, hrst, ht, andThen_next, if_neg hheld, Bool.false_eq_true, if_false]

/-- Settles O47: the step is the read alone, which writes the read port. -/
theorem readsHaveNoSideEffect : Obligations.ReadsHaveNoSideEffect := by
  intro s c rest hnext hrst hsel hwe hno
  rw [step_cycle hnext, portEdge_access (atEdge s rest) hrst hno, hostAccess_read _ hsel hwe]
  rfl

/-! Operands with no word behind them (20_memory.md R50), and lookups outside their contract (41_twiddle_rom.md R116). -/

theorem lookup_eq_none_of_not_defined {s : State} {z P : Nat} (h : ¬ LookupDefined s z P) : lookup s z P = none := if_neg h

theorem butterfly_noSuchWord {s : State} {a b : Nat} (z p m : Nat) (h : s.cfg.amax ≤ a ∨ s.cfg.amax ≤ b) :
    butterfly a b z p m s = .refused .noSuchWord :=
  if_neg (by omega)

theorem butterfly_lookupOutsideContract {s : State} {a b z p : Nat} (m : Nat) (ha : a < s.cfg.amax) (hb : b < s.cfg.amax)
    (h : ¬ LookupDefined s z (2 * p)) : butterfly a b z p m s = .refused .lookupOutsideContract := by
  simp only [butterfly, ha, hb, and_self, if_true, lookup_eq_none_of_not_defined h]

/-- A dual butterfly is refused as its even pair is, which is made first (44_butterfly_engine.md R158). -/
theorem execDbfly_refused {s : State} {i k2 z p M : Nat} {x : Refusal} (h : butterfly i (i + k2) z p M s = .refused x) :
    execDbfly i k2 z p M s = .refused x := by
  rw [execDbfly, h, andThen_refused]

/-- Settles O35: each operation looks at its indexes before anything else, and a butterfly then makes its lookup. -/
theorem operandsOutsideTheBlockAreRefused : Obligations.OperandsOutsideTheBlockAreRefused := by
  intro s
  refine ⟨fun i hi => ?pair0, fun a b z p M hab => ?bfly, fun i k2 z p M hb => ?dbflyWord,
    fun i k2 z p M hb hlookup => ?dbflyLookup, fun A i hi => ?twgen⟩
  case pair0 => exact if_neg (by omega)
  case bfly => exact butterfly_noSuchWord z p M hab
  case dbflyWord => exact execDbfly_refused (butterfly_noSuchWord z p M (.inr hb))
  case dbflyLookup => exact execDbfly_refused (butterfly_lookupOutsideContract M (by omega) hb hlookup)
  case twgen => exact if_neg (not_lt.mpr hi)

end Sys2Proof.Machine
end

section
/-! PROOFS. Decoding and encoding (30_encoding.md R70 to R80): the fields of a command word as numbers, the round trips, which
words are illegal, and the step of an operation on the select lines. -/

namespace Sys2Proof

open Machine

/-! The fields of a command word (R71). -/

theorem toNat_opcField (w : PortWord) : (opcField w).toNat = w.toNat % 16 := by simp [opcField]

theorem toNat_rsvField (w : PortWord) : (rsvField w).toNat = w.toNat / 16 % 4096 := by
  simp [rsvField, Nat.shiftRight_eq_div_pow]

theorem toNat_sizeField (w : PortWord) : (sizeField w).toNat = w.toNat / 65536 := by
  have hw := w.isLt
  simp only [sizeField, BitVec.extractLsb'_toNat, Nat.shiftRight_eq_div_pow]
  omega

theorem sizeField_eq_ofNat (w : PortWord) : sizeField w = BitVec.ofNat 16 (w.toNat / 65536) := by
  simp [sizeField, BitVec.extractLsb', Nat.shiftRight_eq_div_pow]

theorem rsvField_eq_zero_iff (w : PortWord) : rsvField w = 0 ↔ w.toNat / 16 % 4096 = 0 := by
  rw [← BitVec.toNat_inj, toNat_rsvField]
  rfl

theorem sizeField_eq_zero_iff (w : PortWord) : sizeField w = 0 ↔ w.toNat / 65536 = 0 := by
  rw [← BitVec.toNat_inj, toNat_sizeField]
  rfl

theorem opcField_eq_iff (w : PortWord) (c : BitVec 4) : opcField w = c ↔ w.toNat % 16 = c.toNat := by
  rw [← BitVec.toNat_inj, toNat_opcField]

/-- A command word as a number: `SIZE` above 16 bits, `OPC` in the lowest four, zeros between. -/
theorem toNat_cmdWord (size : BitVec 16) (opc : BitVec 4) : (cmdWord size opc).toNat = size.toNat * 65536 + opc.toNat := by
  have hlow := opc.isLt
  rw [cmdWord, BitVec.toNat_append, BitVec.toNat_append, ← Nat.shiftLeft_add_eq_or_of_lt hlow, Nat.shiftLeft_eq]
  simp [Nat.shiftLeft_eq]
  omega

/-- The word that has the fields is the word of the fields. -/
theorem cmdWord_eq_iff (size : BitVec 16) (opc : BitVec 4) (w : PortWord) :
    cmdWord size opc = w ↔ sizeField w = size ∧ rsvField w = 0 ∧ opcField w = opc := by
  have hsize := size.isLt
  have hopc := opc.isLt
  have hw := w.isLt
  rw [rsvField_eq_zero_iff, opcField_eq_iff, ← BitVec.toNat_inj, ← BitVec.toNat_inj, toNat_cmdWord, toNat_sizeField]
  omega

/-- Decoding by the fields (R80), on their numbers. -/
theorem decodeCmd_eq (w : PortWord) : decodeCmd w =
    if w.toNat / 16 % 4096 ≠ 0 then none
    else if w.toNat % 16 = 1 then some (.build (BitVec.ofNat 16 (w.toNat / 65536)))
    else if w.toNat % 16 = 2 then some (.xform (BitVec.ofNat 16 (w.toNat / 65536)))
    else if w.toNat % 16 = 3 ∧ w.toNat / 65536 = 0 then some .release
    else if w.toNat % 16 = 4 ∧ w.toNat / 65536 = 0 then some .clrstat
    else none := by
  simp only [decodeCmd, ne_eq, rsvField_eq_zero_iff, opcField_eq_iff, sizeField_eq_zero_iff, ← sizeField_eq_ofNat]
  rfl

/-! The round trips (R80). -/

/-- A command word decodes to an instruction exactly when it is the instruction's encoding. -/
theorem decodeCmd_eq_some_iff (w : PortWord) (i : Instr) : decodeCmd w = some i ↔ encode i = .cmd w := by
  constructor
  · intro h
    unfold decodeCmd at h
    split_ifs at h with hrsv hbuild hxform hrelease hclrstat
    all_goals
      injection h with h
      subst h
      refine congrArg Encoded.cmd ((cmdWord_eq_iff _ _ w).mpr ?_)
      rw [not_not] at hrsv
    · exact ⟨rfl, hrsv, hbuild⟩
    · exact ⟨rfl, hrsv, hxform⟩
    · exact ⟨hrelease.2, hrsv, hrelease.1⟩
    · exact ⟨hclrstat.2, hrsv, hclrstat.1⟩
  · intro h
    cases i <;> simp only [encode, reduceCtorEq, Encoded.cmd.injEq] at h
    all_goals
      obtain ⟨hsize, hrsv, hopc⟩ := (cmdWord_eq_iff _ _ w).mp h
      simp [decodeCmd, hsize, hrsv, hopc]

theorem decode_encode (i : Instr) : decode (encode i) = some i := by
  have command : ∀ w, encode i = .cmd w → decode (encode i) = some i := fun w h => by
    rw [h]
    exact (decodeCmd_eq_some_iff w i).mpr h
  cases i with
  | build size => exact command _ rfl
  | xform size => exact command _ rfl
  | release => exact command _ rfl
  | clrstat => exact command _ rfl
  | _ => rfl

/-- Settles O1: the two directions of the round trip of a command word are one equivalence, and an internal operation's select
code picks its own row of the table. -/
theorem decodingInvertsEncoding : Obligations.DecodingInvertsEncoding :=
  ⟨decode_encode, fun w i => (decodeCmd_eq_some_iff w i).mp⟩

/-- Settles O2: the pseudocode and the round trip are stated above; the encoder's words are `cmdWord` as a number. -/
theorem commandWordsDecodeAsTheFieldsSay : Obligations.CommandWordsDecodeAsTheFieldsSay := by
  have word : ∀ (A : BitVec 16) (opc : BitVec 4), cmdWord A opc = BitVec.ofNat 32 (A.toNat * 65536 + opc.toNat) := by
    intro A opc
    rw [← toNat_cmdWord, BitVec.ofNat_toNat, BitVec.setWidth_eq]
  refine ⟨decodeCmd_eq, fun A => ⟨congrArg _ (word A 1), congrArg _ (word A 2)⟩, by decide, by decide,
    fun i w => (decodeCmd_eq_some_iff w i).mpr, ?_⟩
  decide

/-! Illegal words (R75). -/

theorem decodeCmd_eq_none_iff (w : PortWord) : decodeCmd w = none ↔
    (w.toNat % 16 = 0 ∨ 5 ≤ w.toNat % 16 ∨ w.toNat / 16 % 4096 ≠ 0 ∨
      ((w.toNat % 16 = 3 ∨ w.toNat % 16 = 4) ∧ w.toNat / 65536 ≠ 0)) := by
  rw [decodeCmd_eq]
  split_ifs <;> simp only [false_iff, true_iff] <;> omega

/-- An illegal word written to `CMD` of an idle block is rejected (60_exceptions.md R213). -/
theorem writeCmd_illegal {w : PortWord} {s : State} (hw : decodeCmd w = none) (hb : s.status.busy = false) :
    writeCmd w s = .next (reject .illegalCmd s) := by
  simp [writeCmd, hw, hb]

/-- Settles O3: the illegal words are the rest of the fields' cases, and the rejection is that of every access. -/
theorem illegalWordsAreRejected : Obligations.IllegalWordsAreRejected := by
  refine ⟨decodeCmd_eq_none_iff, fun w s hw hb => ?_, by decide⟩
  rw [writeCmd_illegal hw hb]
  rcases reject_eq .illegalCmd s with ⟨herr, hr⟩ | ⟨herr, hr⟩
  · rw [hr, if_pos herr]
  · rw [hr, herr]
    rfl

/-! Words written out, and the select lines (R70 to R76). -/

/-- Settles O4: the fixed words are evaluated, and each select code picks its row whatever the lines hold. -/
theorem writtenOutWordsDecode : Obligations.WrittenOutWordsDecode :=
  ⟨by decide, by decide, by decide, by decide, fun _ => ⟨rfl, rfl, rfl, rfl, rfl, rfl, rfl, rfl⟩⟩

/-- Settles O6: the step takes the operation on the select lines in place of an edge. -/
theorem stepRunsTheSelectedOperation : Obligations.StepRunsTheSelectedOperation := by
  intro s u hu
  refine ⟨fun i hi => ?_, fun hnone => ?_⟩
  · simp only [step_uop hu, runUop, hi]
  · simp only [step_uop hu, runUop, hnone]

end Sys2Proof
end

section
/-! PROOFS. The transform of every size, one Engine operation at a time: the taps between two operations are those of a stage that
is made in part (43_bit_reversal.md R137, R139; 44_butterfly_engine.md R153, R154, R156, R158 to R162). -/

namespace Sys2Proof.Machine

/-! Sizes. -/

theorem even_of_isSize {c : Params} {N : Nat} (hN : isSize c N = true) : N % 2 = 0 := by
  obtain ⟨m, hm, -, rfl⟩ := isSize_iff.mp hN
  exact Nat.mod_eq_zero_of_dvd (dvd_pow_self 2 (by omega))

theorem one_le_stages {c : Params} {N : Nat} (hN : isSize c N = true) : 1 ≤ stages N := by
  obtain ⟨m, hm, -, rfl⟩ := isSize_iff.mp hN
  rwa [stages, Nat.log2_two_pow]

theorem two_pow_le_of_le_stages {c : Params} {N m : Nat} (hN : isSize c N = true) (hm : m ≤ stages N) : 2 ^ m ≤ N := calc
  2 ^ m ≤ 2 ^ stages N := Nat.pow_le_pow_right Nat.two_pos hm
  _ = N := two_pow_log2_of_isSize hN

/-! Bit reversal (43_bit_reversal.md R135, R136). -/

theorem testBit_reverseBits (m j b : Nat) : (reverseBits m j).testBit b = (decide (b < m) && j.testBit (m - 1 - b)) := by
  induction m generalizing j with
  | zero => simp [reverseBits]
  | succ m ih =>
    rw [reverseBits, mul_comm, Nat.testBit_two_pow_mul_add _ (reverseBits_lt m _), ih, Nat.testBit_div_two]
    rcases Nat.lt_trichotomy b m with hb | rfl | hb
    · simp [hb, Nat.lt_succ_of_lt hb, show m - 1 - b + 1 = m - b by omega]
    · simp [Nat.testBit_zero]
    · have hhigh : (j % 2).testBit (b - m) = false :=
        Nat.testBit_lt_two_pow ((Nat.mod_lt j Nat.two_pos).trans_le (Nat.le_self_pow (by omega) 2))
      simp [hhigh, Nat.not_lt.mpr hb.le, show ¬ b < m + 1 by omega]

theorem reverseBits_reverseBits {m j : Nat} (hj : j < 2 ^ m) : reverseBits m (reverseBits m j) = j := by
  refine Nat.eq_of_testBit_eq fun b => ?_
  rw [testBit_reverseBits, testBit_reverseBits]
  by_cases hb : b < m
  · simp [hb, show m - 1 - b < m by omega, show m - 1 - (m - 1 - b) = b by omega]
  · simp [hb, Nat.testBit_lt_two_pow (hj.trans_le (Nat.pow_le_pow_right Nat.two_pos (not_lt.mp hb)))]

section bitReverse

variable {c : Params} {N j : Nat}

theorem bitReverse_lt (j : Nat) (hN : isSize c N = true) : bitReverse j N < N := by
  have hlt := reverseBits_lt (Nat.log2 N) j
  rwa [two_pow_log2_of_isSize hN] at hlt

theorem bitReverse_bitReverse (hN : isSize c N = true) (hj : j < N) : bitReverse (bitReverse j N) N = j :=
  reverseBits_reverseBits (by rwa [two_pow_log2_of_isSize hN])

end bitReverse

/-! The taps in the middle of a pass and of a stage. -/

/-- The taps when the loop of the reorder pass has made its turns below `n`: a pair has been exchanged when the lower of its two
indexes is below `n` (43_bit_reversal.md R137, R138). -/
def reorderedBelow (N n : Nat) (x : Nat → ScaledComplex) (j : Nat) : ScaledComplex :=
  ⟨(x (if j < n ∨ bitReverse j N < n then bitReverse j N else j)).re, (x j).im⟩

/-- The taps when stage 0 has combined the pairs below `b` (44_butterfly_engine.md R154). -/
def combinedBelow (N b : Nat) (x : Nat → ScaledComplex) (j : Nat) : ScaledComplex :=
  if j < b then stageZeroOn N x j else ⟨(x (bitReverse j N)).re, (x j).im⟩

/-- The lower tap of the pair that a tap belongs to in stage `st` (44_butterfly_engine.md R160). -/
def lowerTap (st j : Nat) : Nat := if j % (2 * 2 ^ st) < 2 ^ st then j else j - 2 ^ st

/-- The taps when stage `st` has made the butterflies whose lower tap is below `b` (44_butterfly_engine.md R160). -/
def rotatedBelow (N st b : Nat) (v : Nat → ScaledComplex) (j : Nat) : ScaledComplex :=
  if lowerTap st j < b then stageOn N st v j else v j

theorem reorderedBelow_zero (N : Nat) (x : Nat → ScaledComplex) : reorderedBelow N 0 x = x := by
  funext j
  simp [reorderedBelow]

/-- The whole pass is the input of stage 0. -/
theorem reorderedBelow_self {N j : Nat} (x : Nat → ScaledComplex) (hj : j < N) :
    reorderedBelow N N x j = combinedBelow N 0 x j := by
  simp [reorderedBelow, combinedBelow, hj]

/-- The whole of stage 0. -/
theorem combinedBelow_self {N j : Nat} (x : Nat → ScaledComplex) (hj : j < N) :
    combinedBelow N N x j = tapsAfter N x 0 j := if_pos hj

/-- One combine on even indexes (44_butterfly_engine.md R153). -/
theorem pairTaps_combinedBelow (N : Nat) {i : Nat} (hi : i % 2 = 0) (x : Nat → ScaledComplex) :
    pairTaps i (combinedBelow N i x) = combinedBelow N (i + 2) x := by
  funext j
  rcases lt_or_ge j i with hlow | hlow
  · simp [pairTaps, combinedBelow, hlow, show j ≠ i + 1 by omega, show j ≠ i by omega, show j < i + 2 by omega]
  · rcases show j = i ∨ j = i + 1 ∨ i + 2 ≤ j by omega with rfl | rfl | hhigh
    · simp [pairTaps, combinedBelow, stageZeroOn, hi]
    · simp [pairTaps, combinedBelow, stageZeroOn, show (i + 1) % 2 = 1 by omega]
    · simp [pairTaps, combinedBelow, show ¬ j < i by omega, show j ≠ i + 1 by omega, show j ≠ i by omega,
        show ¬ j < i + 2 by omega]

/-- The rescaled product of R156 is the arithmetic right shift by `log2 N`. -/
theorem rotated_eq_crsh {c : Params} {N : Nat} (hN : isSize c N = true) (o w : ScaledComplex) :
    rotated N o w = crsh (cmul o w) (stages N) := by
  simp only [rotated, crsh, cmul, floorShift, stages, two_pow_log2_of_isSize hN]

section stage

variable {st a : Nat}

theorem lowerTap_of_lower (ha : a % (2 * 2 ^ st) < 2 ^ st) : lowerTap st a = a := if_pos ha

/-- The upper tap of a pair is not a lower one. -/
theorem upper_mod (ha : a % (2 * 2 ^ st) < 2 ^ st) : (a + 2 ^ st) % (2 * 2 ^ st) = a % (2 * 2 ^ st) + 2 ^ st := by
  rw [Nat.add_mod, Nat.mod_eq_of_lt (a := 2 ^ st) (by omega), Nat.mod_eq_of_lt (by omega)]

theorem lowerTap_upper (ha : a % (2 * 2 ^ st) < 2 ^ st) : lowerTap st (a + 2 ^ st) = a := by
  rw [lowerTap, upper_mod ha, if_neg (by omega), Nat.add_sub_cancel]

theorem lowerTap_le (st j : Nat) : lowerTap st j ≤ j := by
  unfold lowerTap
  split
  · exact le_rfl
  · exact Nat.sub_le j _

/-- A pair is its two taps. -/
theorem eq_of_lowerTap_eq {j : Nat} (h : lowerTap st j = a) : j = a ∨ j = a + 2 ^ st := by
  unfold lowerTap at h
  split at h
  · exact .inl h
  · have hle := Nat.mod_le j (2 * 2 ^ st)
    omega

theorem stageOn_lower (N : Nat) (v : Nat → ScaledComplex) (ha : a % (2 * 2 ^ st) < 2 ^ st) :
    stageOn N st v a = cadd (v a) (rotated N (v (a + 2 ^ st)) (stageTwiddle N st a)) := if_pos ha

theorem stageOn_upper (N : Nat) (v : Nat → ScaledComplex) (ha : a % (2 * 2 ^ st) < 2 ^ st) :
    stageOn N st v (a + 2 ^ st) = csub (v a) (rotated N (v (a + 2 ^ st)) (stageTwiddle N st a)) := by
  have hupper : ¬ (a + 2 ^ st) % (2 * 2 ^ st) < 2 ^ st := by rw [upper_mod ha]; omega
  simp only [stageOn, hupper, if_false, Nat.add_sub_cancel, csub]

/-- One butterfly makes one pair of its stage (44_butterfly_engine.md R156, R160). -/
theorem butterflyTaps_rotatedBelow {c : Params} {N : Nat} (hN : isSize c N = true) (ha : a % (2 * 2 ^ st) < 2 ^ st)
    (v : Nat → ScaledComplex) :
    butterflyTaps a (a + 2 ^ st) (stages N) (stageTwiddle N st a) (rotatedBelow N st a v) = rotatedBelow N st (a + 1) v := by
  have hlow : rotatedBelow N st a v a = v a := by simp [rotatedBelow, lowerTap_of_lower ha]
  have hupp : rotatedBelow N st a v (a + 2 ^ st) = v (a + 2 ^ st) := by simp [rotatedBelow, lowerTap_upper ha]
  have hne : a ≠ a + 2 ^ st := (Nat.lt_add_of_pos_right (Nat.two_pow_pos st)).ne
  funext j
  rw [butterflyTaps, hlow, hupp, ← rotated_eq_crsh hN]
  by_cases hj : lowerTap st j = a
  · rcases eq_of_lowerTap_eq hj with rfl | rfl
    · rw [if_neg hne, if_pos rfl, rotatedBelow, hj, if_pos (Nat.lt_succ_self j), stageOn_lower N v ha]
    · rw [if_pos rfl, rotatedBelow, hj, if_pos (Nat.lt_succ_self a), stageOn_upper N v ha]
  · have hout : j ≠ a ∧ j ≠ a + 2 ^ st :=
      ⟨fun h => hj (by rw [h, lowerTap_of_lower ha]), fun h => hj (by rw [h, lowerTap_upper ha])⟩
    rw [if_neg hout.2, if_neg hout.1, rotatedBelow, rotatedBelow]
    simp only [show lowerTap st j < a + 1 ↔ lowerTap st j < a by omega]

theorem rotatedBelow_zero (N st : Nat) (v : Nat → ScaledComplex) : rotatedBelow N st 0 v = v := by
  funext j
  simp [rotatedBelow]

/-- A whole stage. -/
theorem rotatedBelow_self {N j : Nat} (st : Nat) (v : Nat → ScaledComplex) (hj : j < N) :
    rotatedBelow N st N v j = stageOn N st v j :=
  if_pos ((lowerTap_le st j).trans_lt hj)

end stage

/-! The counters of `GENERAL` (44_butterfly_engine.md R159, R160). -/

/-- The lower tap of the first of the two butterflies that dual butterfly `d` of a stage makes: `2^g` of them in each group of
`4 · 2^g` taps. -/
def pairIndex (g d : Nat) : Nat := 4 * 2 ^ g * (d / 2 ^ g) + 2 * (d % 2 ^ g)

/-- SEQ before dual butterfly `d` of stage `g + 1`. -/
def generalSeq (N g d : Nat) : Seq where
  phase := .general
  n := N
  m := stages N
  g := g
  k := 2 ^ g
  p := 2 ^ (g + 1)
  i := pairIndex g d
  cnt := d % 2 ^ g
  z := 2 * (d % 2 ^ g)

theorem pairIndex_zero (g : Nat) : pairIndex g 0 = 0 := by simp [pairIndex]

section counters

variable {N g d : Nat}

theorem count_lt (g d : Nat) : d % 2 ^ g < 2 ^ g := Nat.mod_lt d (Nat.two_pow_pos g)

theorem pairIndex_mod (g d : Nat) : pairIndex g d % (2 * 2 ^ (g + 1)) = 2 * (d % 2 ^ g) := by
  have hlt := count_lt g d
  rw [show 2 * 2 ^ (g + 1) = 4 * 2 ^ g by ring, pairIndex, Nat.mul_add_mod, Nat.mod_eq_of_lt (by omega)]

/-- The next dual butterfly stands in the same group, or first in the next one. -/
theorem next_count (g d : Nat) :
    (d % 2 ^ g + 1 = 2 ^ g ∧ (d + 1) % 2 ^ g = 0 ∧ pairIndex g (d + 1) = pairIndex g d + 2 + 2 * 2 ^ g) ∨
    (d % 2 ^ g + 1 ≠ 2 ^ g ∧ (d + 1) % 2 ^ g = d % 2 ^ g + 1 ∧ pairIndex g (d + 1) = pairIndex g d + 2) := by
  have hlt := count_lt g d
  have hd := Nat.mod_add_div d (2 ^ g)
  by_cases hlast : d % 2 ^ g + 1 = 2 ^ g
  · obtain ⟨hdiv, hmod⟩ : (d + 1) / 2 ^ g = d / 2 ^ g + 1 ∧ (d + 1) % 2 ^ g = 0 :=
      (Nat.div_mod_unique (Nat.two_pow_pos g)).mpr ⟨by rw [mul_add]; omega, Nat.two_pow_pos g⟩
    refine .inl ⟨hlast, hmod, ?_⟩
    rw [pairIndex, pairIndex, hdiv, hmod, mul_add]
    omega
  · obtain ⟨hdiv, hmod⟩ : (d + 1) / 2 ^ g = d / 2 ^ g ∧ (d + 1) % 2 ^ g = d % 2 ^ g + 1 :=
      (Nat.div_mod_unique (Nat.two_pow_pos g)).mpr ⟨by omega, by omega⟩
    refine .inr ⟨hlast, hmod, ?_⟩
    rw [pairIndex, pairIndex, hdiv, hmod]
    omega

/-- SEQ after a dual butterfly (44_butterfly_engine.md R159). -/
theorem advanceLoop_generalSeq (N g d : Nat) :
    advanceLoop (generalSeq N g d) (nextZ (nextZ (2 * (d % 2 ^ g)) (2 ^ (g + 1))) (2 ^ (g + 1))) = generalSeq N g (d + 1) := by
  rw [pow_succ', nextZ_nextZ]
  rcases next_count g d with ⟨hlast, hmod, hi⟩ | ⟨hmore, hmod, hi⟩
  · simp [advanceLoop, generalSeq, hlast, hmod, hi]
  · simp [advanceLoop, generalSeq, hmore, hmod, hi]

theorem nextStage_generalSeq (N g d : Nat) : nextStage (endStage (generalSeq N g d)) = generalSeq N (g + 1) 0 := by
  simp [nextStage, endStage, generalSeq, pairIndex_zero, pow_succ']

theorem startGeneral_eq {q : Seq} (hn : q.n = N) (hm : q.m = stages N) : startGeneral q = generalSeq N 0 0 := by
  simp [startGeneral, generalSeq, pairIndex_zero, hn, hm]

variable {c : Params}

/-- A stage has `N / 4` dual butterflies, in whole groups (44_butterfly_engine.md R160). -/
theorem exists_groups (hN : isSize c N = true) (hg : g + 2 ≤ stages N) : ∃ H, N = 4 * (2 ^ g * H) ∧ N / 4 = 2 ^ g * H := by
  have hpow : N = 4 * (2 ^ g * 2 ^ (stages N - (g + 2))) := calc
    N = 2 ^ stages N := (two_pow_log2_of_isSize hN).symm
    _ = 2 ^ (g + 2 + (stages N - (g + 2))) := by rw [Nat.add_sub_cancel' hg]
    _ = 4 * (2 ^ g * 2 ^ (stages N - (g + 2))) := by ring
  exact ⟨_, hpow, by omega⟩

/-- The last tap of a dual butterfly is a tap of the transform. -/
theorem pairIndex_lt (hN : isSize c N = true) (hg : g + 2 ≤ stages N) (hd : d < N / 4) :
    pairIndex g d + 1 + 2 * 2 ^ g < N := by
  obtain ⟨H, hNH, hquarter⟩ := exists_groups hN hg
  have hlt := count_lt g d
  have hgroup : d / 2 ^ g + 1 ≤ H := Nat.div_lt_of_lt_mul (hquarter ▸ hd)
  have hle : 4 * 2 ^ g * (d / 2 ^ g + 1) ≤ 4 * 2 ^ g * H := Nat.mul_le_mul_left _ hgroup
  rw [mul_add, mul_assoc 4 _ H] at hle
  rw [pairIndex]
  omega

theorem pairIndex_quarter (hN : isSize c N = true) (hg : g + 2 ≤ stages N) : pairIndex g (N / 4) = N := by
  obtain ⟨H, hNH, hquarter⟩ := exists_groups hN hg
  rw [pairIndex, hquarter, Nat.mul_div_cancel_left _ (Nat.two_pow_pos g), Nat.mul_mod_right, mul_assoc]
  omega

end counters

/-- After a dual butterfly: the next one, the next stage, or completion (44_butterfly_engine.md R159). -/
theorem afterDbfly_generalSeq {N g d : Nat} {u : State} (hseq : u.seq = generalSeq N g d)
    (hres : u.result = .index (nextZ (nextZ (2 * (d % 2 ^ g)) (2 ^ (g + 1))) (2 ^ (g + 1)))) :
    afterDbfly u =
      if pairIndex g (d + 1) + 3 ≤ N then u.setSeq (generalSeq N g (d + 1))
      else if g + 2 < stages N then u.setSeq (generalSeq N (g + 1) 0)
      else completeXform (u.setSeq (endStage (generalSeq N g (d + 1)))) := by
  rw [afterDbfly, hseq, hres, Result.toIndex, advanceLoop_generalSeq, nextStage_generalSeq]
  rfl

/-! Dual butterflies. -/

section dual

variable {N g d : Nat}

/-- The step of a stage is the position of the lower tap in its group (44_butterfly_engine.md R161). -/
theorem stepTwiddle_eq {st z a : Nat} (N : Nat) (hz : a % 2 ^ st = z) : stepTwiddle N z (2 ^ st) = stageTwiddle N st a := by
  rw [stageTwiddle, hz, pow_succ']
  rfl

theorem lowerTap_mod_lt (st j : Nat) : lowerTap st j % (2 * 2 ^ st) < 2 ^ st := by
  unfold lowerTap
  split
  · assumption
  · next hup =>
    have hdiv := Nat.mod_add_div j (2 * 2 ^ st)
    have hlt := Nat.mod_lt j (show 0 < 2 * 2 ^ st from Nat.mul_pos Nat.two_pos (Nat.two_pow_pos st))
    rw [show j - 2 ^ st = 2 * 2 ^ st * (j / (2 * 2 ^ st)) + (j % (2 * 2 ^ st) - 2 ^ st) by omega, Nat.mul_add_mod,
      Nat.mod_eq_of_lt (by omega)]
    omega

/-- The upper half of a group has no lower tap (the jump of 44_butterfly_engine.md R159). -/
theorem rotatedBelow_next (N g d : Nat) (v : Nat → ScaledComplex) :
    rotatedBelow N (g + 1) (pairIndex g d + 2) v = rotatedBelow N (g + 1) (pairIndex g (d + 1)) v := by
  rcases next_count g d with ⟨hlast, -, hi⟩ | ⟨-, -, hi⟩
  · funext j
    have hlow := lowerTap_mod_lt (g + 1) j
    rw [show 2 * 2 ^ (g + 1) = 4 * 2 ^ g by ring, pow_succ'] at hlow
    have hiff : lowerTap (g + 1) j < pairIndex g d + 2 ↔ lowerTap (g + 1) j < pairIndex g (d + 1) := by
      generalize lowerTap (g + 1) j = a at hlow ⊢
      rw [hi, pairIndex]
      refine ⟨fun h => by omega, fun h => ?_⟩
      by_contra hge
      obtain ⟨-, hmod⟩ : a / (4 * 2 ^ g) = d / 2 ^ g ∧ a % (4 * 2 ^ g) = a - 4 * 2 ^ g * (d / 2 ^ g) :=
        (Nat.div_mod_unique (by omega)).mpr ⟨by omega, by omega⟩
      omega
    simp only [rotatedBelow, hiff]
  · rw [hi]

/-- A dual butterfly makes two pairs of its stage (44_butterfly_engine.md R158, R160). -/
theorem dualTaps_rotatedBelow {c : Params} (hN : isSize c N = true) (v : Nat → ScaledComplex) :
    dualTaps N (pairIndex g d) (2 * 2 ^ g) (2 * (d % 2 ^ g)) (2 ^ (g + 1)) (stages N)
      (rotatedBelow N (g + 1) (pairIndex g d) v) = rotatedBelow N (g + 1) (pairIndex g (d + 1)) v := by
  have hcount := count_lt g d
  have hpow : 2 ^ (g + 1) = 2 * 2 ^ g := pow_succ' 2 g
  have hmod := pairIndex_mod g d
  have hmod' : (pairIndex g d + 1) % (2 * 2 ^ (g + 1)) = 2 * (d % 2 ^ g) + 1 := by
    rw [Nat.add_mod, hmod, Nat.mod_eq_of_lt (a := 1) (by omega), Nat.mod_eq_of_lt (by omega)]
  have hz : nextZ (2 * (d % 2 ^ g)) (2 ^ (g + 1)) = 2 * (d % 2 ^ g) + 1 := if_neg (by omega)
  have step : ∀ {a z}, a % (2 * 2 ^ (g + 1)) = z → z < 2 ^ (g + 1) → a % 2 ^ (g + 1) = z := fun ha hlt => by
    rw [← Nat.mod_mul_left_mod _ 2, ha, Nat.mod_eq_of_lt hlt]
  rw [dualTaps, hz, stepTwiddle_eq N (step hmod (by omega)), stepTwiddle_eq N (step hmod' (by omega)), ← hpow,
    butterflyTaps_rotatedBelow hN (by omega), butterflyTaps_rotatedBelow hN (by omega), rotatedBelow_next]

end dual

/-! A transform after a number of Engine operations. -/

/-- A transform of size `N` on the input taps `x`, of which the Engine has made this many operations
(44_butterfly_engine.md R167). -/
inductive XformAt (N : Nat) (x : Nat → ScaledComplex) : Nat → State → Prop
  | permute {s : State} (hT : Transforming s N x) (hph : s.seq.phase = .permute) (hn : s.seq.n = N)
      (hm : s.seq.m = stages N) : XformAt N x 0 s
  | stage0 {s : State} {d : Nat} (hT : Transforming s N (combinedBelow N (2 * d) x)) (hph : s.seq.phase = .stage0)
      (hn : s.seq.n = N) (hm : s.seq.m = stages N) (hi : s.seq.i = 2 * d) (hd : d < N / 2) : XformAt N x (1 + d) s
  | general {s : State} {g d : Nat} (hT : Transforming s N (rotatedBelow N (g + 1) (pairIndex g d) (tapsAfter N x g)))
      (hq : s.seq = generalSeq N g d) (hg : g + 2 ≤ stages N) (hd : d < N / 4) :
      XformAt N x (1 + N / 2 + (g * (N / 4) + d)) s
  | complete {s : State} (hT : Transforming s N (tapsAfter N x (stages N - 1))) :
      XformAt N x (xformOps N) (completeXform s)

/-- No value of any stage leaves SAMPLE_W bits. -/
abbrev StagesFit (c : Params) (N : Nat) (x : Nat → ScaledComplex) : Prop :=
  ∀ st < stages N, ∀ j < N, FitsTap c (tapsAfter N x st j)

theorem engineOp_of_exec {s u : State} {i : Instr} (hi : nextOperation s.seq = some i) (hx : exec i s = .next u) :
    engineOp s = .next (advance s.seq.phase u) := by
  simp only [engineOp, hi, hx, andThen_next]

/-- An accepted `XFORM` has made no operation yet. -/
theorem xformAt_acceptXform {s : State} {N : Nat} {x : Nat → ScaledComplex} (hinv : Inv s) (hsize : isSize s.cfg N = true)
    (hr : ReadyFor s N) (hx : HoldsTaps s N x) : XformAt N x 0 (acceptXform N s) :=
  .permute (transforming_acceptXform hinv hsize hr hx) rfl rfl rfl

namespace Transforming

variable {s : State} {N : Nat} {x : Nat → ScaledComplex}

/-- One turn of the reorder pass (43_bit_reversal.md R137). -/
theorem reorderAt {i : Nat} (h : Transforming s N (reorderedBelow N i x)) (hi : i < N) :
    Transforming (reorderAt N s i) N (reorderedBelow N (i + 1) x) := by
  have hn : bitReverse i N < N := bitReverse_lt i h.size
  have hinvol : bitReverse (bitReverse i N) N = i := bitReverse_bitReverse h.size hi
  have hswap : ∀ {j}, j < N → bitReverse j N = i → j = bitReverse i N := fun hj hrev => by
    rw [← hrev, bitReverse_bitReverse h.size hj]
  rw [Machine.reorderAt, passIndex_of_isSize i h.size]
  split
  · next hlt =>
    refine h.of_frame (by simp [swapRe]) (by simp [swapRe]) (by simp [swapRe]) (by simp [swapRe]) (by simp [swapRe]) rfl
      fun j hj => ?_
    obtain ⟨hre, him⟩ := h.taps j hj
    refine ⟨?_, him⟩
    rw [← mem_re, swapRe, find_mem_put, find_mem_put, h.load_re hi, h.load_re hn, mem_re, hre]
    by_cases hjn : j = bitReverse i N
    · subst hjn
      simp [reorderedBelow, hinvol, hlt.not_gt]
    by_cases hji : j = i
    · subst hji
      simp [reorderedBelow, hinvol, hjn, hlt.not_gt]
    · have hrev : bitReverse j N ≠ i := fun hrev => hjn (hswap hj hrev)
      simp only [reorderedBelow, hjn, hji, and_false, if_false, Nat.lt_succ_iff_lt_or_eq, hrev, or_false]
  · next hge =>
    refine h.congr_taps fun j hj => ?_
    by_cases hji : j = i
    · subst hji
      rcases (not_lt.mp hge).eq_or_lt with heq | hlow
      · simp [reorderedBelow, heq]
      · simp [reorderedBelow, hlow]
    by_cases hrev : bitReverse j N = i
    · have hjn := hswap hj hrev
      simp [reorderedBelow, hrev, show j < i by omega]
    · simp only [reorderedBelow, hji, Nat.lt_succ_iff_lt_or_eq, hrev, or_false]

/-- The reorder pass (43_bit_reversal.md R137, R138). -/
theorem execBrpass_eq (h : Transforming s N x) :
    ∃ u, execBrpass N s = .next u ∧ Transforming u N (combinedBelow N 0 x) ∧ u.seq = s.seq := by
  have hloop : ∀ n ≤ N, Transforming ((List.range n).foldl (Machine.reorderAt N) s) N (reorderedBelow N n x) := by
    intro n hn
    induction n with
    | zero => rwa [reorderedBelow_zero]
    | succ n ih =>
      rw [List.range_succ, List.foldl_append]
      exact (ih (Nat.le_of_succ_le hn)).reorderAt hn
  exact ⟨_, rfl, (hloop N le_rfl).congr_taps fun j hj => reorderedBelow_self x hj, by rw [reorder_frame]⟩

/-- The operation of `PERMUTE`. -/
theorem engineOp_permute (h : Transforming s N x) (hph : s.seq.phase = .permute) (hn : s.seq.n = N)
    (hm : s.seq.m = stages N) : ∃ t, engineOp s = .next t ∧ XformAt N x 1 t := by
  obtain ⟨u, hu, hT, hseq⟩ := h.execBrpass_eq
  have h2 := two_le_of_isSize h.size
  refine ⟨afterBrpass u, ?_, .stage0 (d := 0) (hT.setSeq _) rfl
    ((congrArg Seq.n hseq).trans hn) ((congrArg Seq.m hseq).trans hm) rfl (by omega)⟩
  rw [engineOp_of_exec (i := .brpass N) (by rw [nextOperation, hph, hn]) hu, hph, advance]

/-- How SEQ goes on after a combine of stage 0 (44_butterfly_engine.md R154). -/
theorem xformAt_afterPair0 {d : Nat} (h : Transforming s N (combinedBelow N (2 * (d + 1)) x)) (hph : s.seq.phase = .stage0)
    (hn : s.seq.n = N) (hm : s.seq.m = stages N) (hi : s.seq.i = 2 * d) (hd : d < N / 2) :
    XformAt N x (1 + d + 1) (afterPair0 s) := by
  have heven := even_of_isSize h.size
  rw [afterPair0, hi, hn, hm]
  by_cases hmore : 2 * d + 2 ≤ N - 2
  · rw [if_pos hmore]
    exact .stage0 (d := d + 1) (h.setSeq _) hph hn hm rfl (by omega)
  have hall : 2 * (d + 1) = N := by omega
  have hT : Transforming s N (tapsAfter N x 0) := h.congr_taps fun j hj => by rw [hall, combinedBelow_self x hj]
  rw [if_neg hmore]
  by_cases hgeneral : 2 ≤ stages N
  · have h4 : 2 ^ 2 ≤ N := two_pow_le_of_le_stages h.size hgeneral
    rw [if_pos hgeneral, show 1 + d + 1 = 1 + N / 2 + (0 * (N / 4) + 0) by omega]
    refine .general (Transforming.setSeq ?_ _) (startGeneral_eq hn hm) hgeneral (by omega)
    rwa [pairIndex_zero, rotatedBelow_zero]
  · have hone : stages N - 1 = 0 := by omega
    have hops : 1 + d + 1 = xformOps N := by
      rw [xformOps, hone]
      omega
    rw [if_neg hgeneral, hops]
    exact .complete (Transforming.setSeq (hone ▸ hT) _)

/-- An operation of `STAGE0`. -/
theorem engineOp_stage0 {d : Nat} (h : Transforming s N (combinedBelow N (2 * d) x)) (hph : s.seq.phase = .stage0)
    (hn : s.seq.n = N) (hm : s.seq.m = stages N) (hi : s.seq.i = 2 * d) (hd : d < N / 2) (hfit : StagesFit s.cfg N x) :
    ∃ t, engineOp s = .next t ∧ XformAt N x (1 + d + 1) t := by
  have hst := one_le_stages h.size
  have hlow : (tapsAfter N x 0 (2 * d)).re =
      (combinedBelow N (2 * d) x (2 * d)).re + (combinedBelow N (2 * d) x (2 * d + 1)).re := by
    simp [tapsAfter, combinedBelow, stageZeroOn]
  have hupp : (tapsAfter N x 0 (2 * d + 1)).re =
      (combinedBelow N (2 * d) x (2 * d)).re - (combinedBelow N (2 * d) x (2 * d + 1)).re := by
    simp [tapsAfter, combinedBelow, stageZeroOn, Nat.add_mod]
  obtain ⟨u, hu, hT, hseq, -⟩ := h.execPair0_eq (by omega) (hlow ▸ (hfit 0 hst (2 * d) (by omega)).1)
    (hupp ▸ (hfit 0 hst (2 * d + 1) (by omega)).1)
  rw [pairTaps_combinedBelow N (by omega) x] at hT
  refine ⟨afterPair0 u, ?_, hT.xformAt_afterPair0 (hseq ▸ hph) (hseq ▸ hn) (hseq ▸ hm) (hseq ▸ hi) hd⟩
  rw [engineOp_of_exec (i := .pair0 (2 * d)) (by rw [nextOperation, hph, hi]) hu, hph, advance]

/-- How SEQ goes on after a dual butterfly (44_butterfly_engine.md R159). -/
theorem xformAt_afterDbfly {g d : Nat}
    (h : Transforming s N (rotatedBelow N (g + 1) (pairIndex g (d + 1)) (tapsAfter N x g))) (hq : s.seq = generalSeq N g d)
    (hres : s.result = .index (nextZ (nextZ (2 * (d % 2 ^ g)) (2 ^ (g + 1))) (2 ^ (g + 1)))) (hg : g + 2 ≤ stages N)
    (hd : d < N / 4) : XformAt N x (1 + N / 2 + (g * (N / 4) + d) + 1) (afterDbfly s) := by
  rw [afterDbfly_generalSeq hq hres]
  rcases show d + 1 < N / 4 ∨ d + 1 = N / 4 by omega with hmore | hend
  · have hlast := pairIndex_lt h.size hg hmore
    have hgroup := Nat.two_pow_pos g
    rw [if_pos (by omega)]
    exact .general (h.setSeq _) rfl hg hmore
  have hwhole : pairIndex g (d + 1) = N := hend ▸ pairIndex_quarter h.size hg
  have hT : Transforming s N (tapsAfter N x (g + 1)) := h.congr_taps fun j hj => by
    rw [hwhole, rotatedBelow_self _ _ hj, tapsAfter]
  have hops : 1 + N / 2 + (g * (N / 4) + d) + 1 = 1 + N / 2 + ((g + 1) * (N / 4) + 0) := by
    rw [add_mul]
    omega
  rw [if_neg (by omega), hops]
  by_cases hstage : g + 2 < stages N
  · rw [if_pos hstage]
    refine .general (Transforming.setSeq ?_ _) rfl hstage (by omega)
    rwa [pairIndex_zero, rotatedBelow_zero]
  · have hlast : stages N - 1 = g + 1 := by omega
    have hall : 1 + N / 2 + ((g + 1) * (N / 4) + 0) = xformOps N := by rw [xformOps, hlast, add_zero]
    rw [if_neg hstage, hall]
    exact .complete (Transforming.setSeq (hlast ▸ hT) _)

/-- An operation of `GENERAL`. -/
theorem engineOp_general {g d : Nat} (h : Transforming s N (rotatedBelow N (g + 1) (pairIndex g d) (tapsAfter N x g)))
    (hq : s.seq = generalSeq N g d) (hg : g + 2 ≤ stages N) (hd : d < N / 4) (hfit : StagesFit s.cfg N x) :
    ∃ t, engineOp s = .next t ∧ XformAt N x (1 + N / 2 + (g * (N / 4) + d) + 1) t := by
  have hlast := pairIndex_lt h.size hg hd
  have hcount := count_lt g d
  have hgroup := Nat.two_pow_pos g
  have hdual := dualTaps_rotatedBelow (g := g) (d := d) h.size (tapsAfter N x g)
  have hhalf : 2 ^ (g + 1) = 2 * 2 ^ g := pow_succ' 2 g
  have hturn : 2 ^ (g + 2) = 2 * 2 ^ (g + 1) := pow_succ' 2 (g + 1)
  have hfits : ∀ b, ∀ j < N, FitsTap s.cfg (rotatedBelow N (g + 1) b (tapsAfter N x g) j) := by
    intro b j hj
    rw [rotatedBelow]
    split
    · exact hfit (g + 1) (by omega) j hj
    · exact hfit g (by omega) j hj
  obtain ⟨u, hu, hT, hseq, -, hres⟩ := h.execDbfly_eq (k2 := 2 * 2 ^ g) (z := 2 * (d % 2 ^ g)) (p := 2 ^ (g + 1))
    (m := stages N) (by omega) (by omega) (isPow2_iff.mpr ⟨g + 2, by omega, hturn.symm⟩) (by omega)
    (hturn ▸ two_pow_le_of_le_stages h.size hg) (by omega) (hdual ▸ hfits _)
  rw [hdual] at hT
  refine ⟨afterDbfly u, ?_, hT.xformAt_afterDbfly (hseq.trans hq) hres hg hd⟩
  have hnext : nextOperation s.seq = some (.dbfly (pairIndex g d) (2 * 2 ^ g) (2 * (d % 2 ^ g)) (2 ^ (g + 1)) (stages N)) := by
    rw [hq]
    rfl
  rw [engineOp_of_exec hnext hu, show s.seq.phase = .general by rw [hq]; rfl, advance]

end Transforming

namespace XformAt

variable {N k : Nat} {x : Nat → ScaledComplex} {s : State}

/-- One more Engine operation, when no value of any stage leaves SAMPLE_W bits. -/
theorem engineOp (h : XformAt N x k s) (hk : k < xformOps N) (hfit : StagesFit s.cfg N x) :
    ∃ t, engineOp s = .next t ∧ XformAt N x (k + 1) t := by
  cases h with
  | permute hT hph hn hm => exact hT.engineOp_permute hph hn hm
  | stage0 hT hph hn hm hi hd => exact hT.engineOp_stage0 hph hn hm hi hd hfit
  | general hT hq hg hd => exact hT.engineOp_general hq hg hd hfit
  | complete => exact absurd hk (lt_irrefl _)

theorem busy (h : XformAt N x k s) (hk : k < xformOps N) : s.status.busy = true := by
  cases h with
  | permute hT => exact hT.busy
  | stage0 hT => exact hT.busy
  | general hT => exact hT.busy
  | complete => exact absurd hk (lt_irrefl _)

theorem alone (h : XformAt N x k s) : Alone s := by
  cases h with
  | permute hT => exact hT.alone
  | stage0 hT => exact hT.alone
  | general hT => exact hT.alone
  | complete hT => exact hT.alone

/-- A transform that has made all its operations is complete (44_butterfly_engine.md R162, R167). -/
theorem completed (h : XformAt N x k s) (hk : xformOps N ≤ k) :
    s.status.busy = false ∧ s.status.done = true ∧ HoldsTaps s N (tapsAfter N x (stages N - 1)) := by
  cases h with
  | permute =>
    rw [xformOps] at hk
    omega
  | stage0 hT hph hn hm hi hd =>
    rw [xformOps] at hk
    omega
  | @general _ g d hT hq hg hd =>
    have hstage : (g + 1) * (N / 4) ≤ (stages N - 1) * (N / 4) := Nat.mul_le_mul_right _ (by omega)
    rw [add_mul, one_mul] at hstage
    rw [xformOps] at hk
    omega
  | complete hT => exact ⟨rfl, rfl, hT.taps⟩

/-- An edge at which a Host only reads leaves a transform where it is, but for the read port. -/
theorem atEdge (h : XformAt N x k s) (hk : k < xformOps N) (d : Option PortWord) :
    XformAt N x k ((atEdge s []).setRdata d) := by
  have port : ∀ {y}, Transforming s N y → Transforming ((Machine.atEdge s []).setRdata d) N y := fun hT =>
    hT.at_edge.of_frame rfl rfl rfl rfl rfl rfl hT.taps
  cases h with
  | permute hT hph hn hm => exact .permute (port hT) hph hn hm
  | stage0 hT hph hn hm hi hd => exact .stage0 (port hT) hph hn hm hi hd
  | general hT hq hg hd => exact .general (port hT) hq hg hd
  | complete => exact absurd hk (lt_irrefl _)

end XformAt

end Sys2Proof.Machine
end

section
/-! PROOFS. Host programs (30_encoding.md R78, R79): the edge of a line, `WAIT`, the writes of a list of values, and the program
`FFT`. -/

namespace Sys2Proof.Machine

/-! The edge of a line. -/

theorem programEdge_of_step {s t : State} {e : Bool} {l : HostLine} (rest : List HostLine)
    (h : step { s with host := [l.cycle s.cfg e] } = .next t) :
    programEdge e (l :: rest) s = .next (t, if l.again t then l :: rest else rest) := by
  simp only [programEdge, h]

theorem runProgram_cons_of_edge {s t : State} {e : Bool} {lines left : List HostLine} (es : List Bool)
    (h : programEdge e lines s = .next (t, left)) : runProgram (e :: es) lines s = runProgram es left t := by
  simp only [runProgram, h]

/-- The edge of the one cycle that a Host offers. -/
theorem step_offered {s : State} (huop : s.uop = none) (c : PortCycle) :
    step { s with host := [c] } = portEdge c (atEdge s []) :=
  step_cycle (s := { s with host := [c] }) ⟨huop, rfl⟩

/-- The edge at which an idle block takes a write. -/
theorem step_write_idle {s : State} (huop : s.uop = none) (hb : s.status.busy = false) (addr : Nat) (d : PortWord) (e : Bool) :
    step { s with host := [writeCycle addr d e] } = hostWrite addr d (atEdge s []) := by
  rw [step_offered huop, portEdge_access (atEdge s []) rfl (.inl hb)]
  rfl

/-! `WAIT`. -/

/-- Bit 0 of the STATUS word (10_state.md R31). -/
theorem getLsbD_statusWord (st : Status) : st.word.getLsbD 0 = st.busy := by
  rw [BitVec.getLsbD, toNat_statusWord, Nat.testBit_zero]
  cases st.busy <;> simp <;> omega

theorem readsBusy_of_statusWord {t : State} {st : Status} (h : t.rdata = some st.word) : readsBusy t = st.busy := by
  simp only [readsBusy, h, getLsbD_statusWord]

/-- The state after a read of STATUS, before an operation of the same edge. -/
def statusRead (s : State) : State := (atEdge s []).setRdata (some s.status.word)

theorem step_statusRead {s : State} (huop : s.uop = none) (e : Bool) :
    step { s with host := [readCycle 1 e] } =
      if s.status.busy = true ∧ e = true then engineOp (statusRead s) else .next (statusRead s) := by
  have hread : hostAccess (readCycle 1 e) (atEdge s []) = .next (statusRead s) := by
    rw [hostAccess_read _ rfl rfl, hostRead, show (readCycle 1 e).addr = 1 from rfl, target_status]
    rfl
  rw [step_offered huop, portEdge, hread]
  rfl

theorem engineOp_rdata {s t : State} (h : engineOp s = .next t) : t.rdata = s.rdata := by
  rcases engineOp_next h with ⟨-, rfl⟩ | ⟨i, u, -, hu, rfl⟩
  · rfl
  · obtain ⟨-, hrdata, -⟩ := exec_next_frame hu
    rw [advance_frame]
    exact hrdata

theorem programEdge_wait_busy {s t : State} {e : Bool} (rest : List HostLine) (hb : s.status.busy = true)
    (hstep : step { s with host := [readCycle 1 e] } = .next t) (hread : t.rdata = some s.status.word) :
    programEdge e (.wait :: rest) s = .next (t, .wait :: rest) := by
  rw [programEdge_of_step (l := .wait) rest hstep, HostLine.again, readsBusy_of_statusWord hread, hb]
  rfl

theorem programEdge_wait_idle {s : State} (e : Bool) (rest : List HostLine) (huop : s.uop = none) (hb : s.status.busy = false) :
    programEdge e (.wait :: rest) s = .next (statusRead s, rest) := by
  have hstep : step { s with host := [readCycle 1 e] } = .next (statusRead s) := by
    rw [step_statusRead huop, if_neg (by simp [hb])]
  rw [programEdge_of_step (l := .wait) rest hstep, HostLine.again, readsBusy_of_statusWord (st := s.status) rfl, hb]
  rfl

/-- Settles O59: the line reads STATUS before an operation of the same edge, so that the bit it looks at is the BUSY of before. -/
theorem waitRepeatsUntilBusyReadsZero : Obligations.WaitRepeatsUntilBusyReadsZero := by
  intro s rest e huop
  refine ⟨fun hb => ⟨fun t left h => ?_, ?_⟩, fun hb => programEdge_wait_idle e rest huop hb⟩
  · cases hstep : step { s with host := [readCycle 1 e] } with
    | next u =>
      have hread : u.rdata = some s.status.word := by
        rw [step_statusRead huop] at hstep
        split at hstep
        · exact engineOp_rdata hstep
        · injection hstep with hstep
          exact hstep ▸ rfl
      rw [programEdge_wait_busy rest hb hstep hread] at h
      injection h with h
      injection h with ht hleft
      exact ⟨ht ▸ hread, hleft.symm⟩
    | fault x => simp [programEdge, HostLine.cycle, HostAction.cycle, hstep] at h
    | refused x => simp [programEdge, HostLine.cycle, HostAction.cycle, hstep] at h
  · exact programEdge_wait_busy rest hb ((step_statusRead huop false).trans (if_neg (by simp))) rfl

/-! The writes of a list of values. -/

theorem hostWrite_sample_idle {s : State} {sp : Space} {i : Nat} (d : PortWord) (hsp : sp ≠ .tw) (hb : s.status.busy = false)
    (hi : i < s.cfg.amax) :
    hostWrite (spaceBase s.cfg sp + i) d s = .next (put s sp i (signedLow s.cfg.sampleW d)) := by
  cases sp with
  | re => exact hostWrite_re_idle d (by rw [spaceBase, target_re_space (by omega), if_pos hi]) hb
  | im => exact hostWrite_im_idle d (by rw [spaceBase, target_im_space (by omega), if_pos hi]) hb
  | tw => exact absurd rfl hsp

/-- What the writes of `vs` to the words of a space from `i` on leave behind (45_commands.md R186). -/
structure Written (sp : Space) (i : Nat) (vs : List PortWord) (s t : State) : Prop where
  inv : Inv t
  cfg : t.cfg = s.cfg
  status : t.status = s.status
  base : t.tableA = s.tableA
  other : ∀ sq, sq ≠ sp → t.mem sq = s.mem sq
  below : ∀ j < i, (t.mem sp).find j = (s.mem sp).find j
  words : ∀ j < vs.length, (t.mem sp).find (i + j) = some (signedLow s.cfg.sampleW (vs.getD j 0))

theorem written_nil {s : State} (sp : Space) (i : Nat) (h : Inv s) : Written sp i [] s s :=
  ⟨h, rfl, rfl, rfl, fun _ _ => rfl, fun _ _ => rfl, by simp⟩

section writes

variable {sp : Space} {i : Nat} {v : PortWord} {s t : State}

/-- The first write, and then the others. -/
theorem Written.cons {vs : List PortWord}
    (h : Written sp (i + 1) vs (put (atEdge s []) sp i (signedLow s.cfg.sampleW v)) t) : Written sp i (v :: vs) s t := by
  obtain ⟨hinv, hcfg, hstatus, hbase, hother, hbelow, hwords⟩ := h
  have hmem : (atEdge s []).mem = s.mem := by
    funext sq
    cases sq <;> rfl
  refine ⟨hinv, hcfg.trans (put_cfg ..), hstatus.trans (put_status ..), hbase.trans (put_tableA ..), fun sq hsq => ?_,
    fun j hj => ?_, fun j hj => ?_⟩
  · rw [hother sq hsq, put, setMem_mem_ne _ _ hsq, hmem]
  · rw [hbelow j (by omega), find_mem_put, if_neg (by omega), hmem]
  · cases j with
    | zero => rw [add_zero, hbelow i (Nat.lt_succ_self i), find_mem_put, if_pos ⟨rfl, rfl⟩, List.getD_cons_zero]
    | succ j =>
      rw [show i + (j + 1) = i + 1 + j by omega, hwords j (Nat.lt_of_succ_lt_succ hj), put_cfg, List.getD_cons_succ]
      rfl

/-- The edges of a list of writes to an idle block. -/
theorem runProgram_writeFrom {wr : Nat → PortWord → HostAction} (hsp : sp ≠ .tw)
    (hwr : ∀ c e i v, (wr i v).cycle c e = writeCycle (spaceBase c sp + i) v e) (es : List Bool) (lines : List HostLine)
    (vs : List PortWord) (hinv : Inv s) (hb : s.status.busy = false) (hlen : i + vs.length ≤ s.cfg.amax) :
    ∃ t, runProgram (List.replicate vs.length true ++ es) (writeFrom wr i vs ++ lines) s = runProgram es lines t ∧
      Written sp i vs s t := by
  induction vs generalizing i s with
  | nil => exact ⟨s, rfl, written_nil sp i hinv⟩
  | cons v vs ih =>
    rw [List.length_cons] at hlen
    have hi : i < s.cfg.amax := by omega
    obtain ⟨-, -, huop⟩ := inv_iff.mp hinv
    have hedge : programEdge true (.act (wr i v) :: (writeFrom wr (i + 1) vs ++ lines)) s =
        .next (put (atEdge s []) sp i (signedLow s.cfg.sampleW v), writeFrom wr (i + 1) vs ++ lines) := by
      refine programEdge_of_step (l := .act (wr i v)) _ ?_
      rw [HostLine.cycle, hwr, step_write_idle huop hb]
      exact hostWrite_sample_idle v hsp hb hi
    have hinv' : Inv (put (atEdge s []) sp i (signedLow s.cfg.sampleW v)) :=
      (HostEffect.sample (s := atEdge s []) v hb hsp hi).inv (inv_atEdge [] hinv)
    have hlen' : i + 1 + vs.length ≤ s.cfg.amax := by omega
    obtain ⟨t, ht, hw⟩ := ih hinv' (by rwa [put_status]) (by rwa [put_cfg])
    exact ⟨t, (runProgram_cons_of_edge _ hedge).trans ht, hw.cons⟩

end writes

/-! The program `FFT`. -/

/-- `LOADRE` and `ZEROIM` leave the values as the taps of a real input (30_encoding.md R79). -/
theorem holdsTaps_of_written {s t u : State} {vs : List PortWord} {n : Nat} (hn : vs.length = n) (hre : Written .re 0 vs s t)
    (him : Written .im 0 (List.replicate n 0) t u) :
    HoldsTaps u n fun j => ⟨signedLow s.cfg.sampleW (vs.getD j 0), 0⟩ := by
  intro j hj
  constructor
  · rw [← mem_re, him.other .re (by decide)]
    simpa using hre.words j (hn ▸ hj)
  · have hzero := him.words j (by rwa [List.length_replicate])
    simpa [List.getD_replicate, hj, signedLow] using hzero

/-- The edge at which an idle block takes an `XFORM` of its table's size. -/
theorem programEdge_xform {s : State} {N : BitVec 16} (e : Bool) (rest : List HostLine) (huop : s.uop = none)
    (hsize : isSize s.cfg N.toNat = true) (hr : ReadyFor (atEdge s []) N.toNat) :
    programEdge e (.act (.xform N) :: rest) s = .next (acceptXform N.toNat (atEdge s []), rest) := by
  refine programEdge_of_step (l := .act (.xform N)) rest ?_
  rw [HostLine.cycle, HostAction.cycle, step_write_idle huop hr.1, hostWrite, target_cmd]
  simp only [writeCmd, (decodeCmd_eq_some_iff (cmdWord N 2) (.xform N)).mpr rfl]
  exact execXform_of_readyFor hsize hr

/-- `WAIT` polls through the operations that are left, and ends with the complete transform. -/
theorem runProgram_wait {N k m : Nat} {x : Nat → ScaledComplex} {s : State} (h : XformAt N x k s)
    (hm : k + m = xformOps N) (hfit : StagesFit s.cfg N x) :
    ∃ t, runProgram (List.replicate (m + 1) true) pseudoWait s = .next (t, []) ∧ t.status.busy = false ∧
      t.status.done = true ∧ HoldsTaps t N (tapsAfter N x (stages N - 1)) := by
  induction m generalizing k s with
  | zero =>
    obtain ⟨hb, hdone, htaps⟩ := h.completed hm.ge
    exact ⟨statusRead s, runProgram_cons_of_edge [] (programEdge_wait_idle true [] h.alone.2 hb), hb, hdone, htaps⟩
  | succ m ih =>
    have hk : k < xformOps N := by omega
    obtain ⟨t, ht, hnext⟩ := (h.atEdge hk (some s.status.word)).engineOp hk hfit
    have hstep : step { s with host := [readCycle 1 true] } = .next t := by
      rw [step_statusRead h.alone.2, if_pos ⟨h.busy hk, rfl⟩]
      exact ht
    obtain ⟨u, hu, hend⟩ := ih hnext (by omega) (engineOp_cfg ht ▸ hfit)
    exact ⟨u, (runProgram_cons_of_edge _ (programEdge_wait_busy [] (h.busy hk) hstep (engineOp_rdata ht))).trans hu, hend⟩

/-- Settles O60: the loads and the zeros are the taps of the input, the `XFORM` is accepted, and `WAIT` polls through its
operations, each of which makes its part of a stage. -/
theorem fftProgramLeavesTheTransform : Obligations.FftProgramLeavesTheTransform := by
  intro N s vs hinv hsize hb hvalid hbase hlen x hfit
  have hmax : 0 + N.toNat ≤ s.cfg.amax := by rw [zero_add]; exact le_amax_of_isSize hsize
  have hedges : List.replicate (2 * N.toNat + 1 + xformOps N.toNat + 1) true = List.replicate N.toNat true ++
      (List.replicate N.toNat true ++ true :: List.replicate (xformOps N.toNat + 1) true) := by
    rw [← List.replicate_succ, List.replicate_append_replicate, List.replicate_append_replicate]
    congr 1
    omega
  obtain ⟨s1, hrun1, h1⟩ := runProgram_writeFrom (sp := .re) (wr := .wrre) (by decide) (fun _ _ _ _ => rfl)
    (List.replicate N.toNat true ++ true :: List.replicate (xformOps N.toNat + 1) true)
    (pseudoZeroIm N.toNat ++ .act (.xform N) :: pseudoWait) vs hinv hb (hlen ▸ hmax)
  obtain ⟨s2, hrun2, h2⟩ := runProgram_writeFrom (sp := .im) (wr := .wrim) (by decide) (fun _ _ _ _ => rfl)
    (true :: List.replicate (xformOps N.toNat + 1) true) (.act (.xform N) :: pseudoWait) (List.replicate N.toNat 0) h1.inv
    (h1.status ▸ hb) (by rwa [List.length_replicate, h1.cfg])
  rw [hlen] at hrun1
  rw [List.length_replicate] at hrun2
  have hcfg : s2.cfg = s.cfg := h2.cfg.trans h1.cfg
  have hstatus : (atEdge s2 []).status = s.status := h2.status.trans h1.status
  obtain ⟨-, -, huop⟩ := inv_iff.mp h2.inv
  have hready : ReadyFor (atEdge s2 []) N.toNat :=
    ⟨hstatus ▸ hb, ⟨rfl, huop⟩, hstatus ▸ hvalid, (h2.base.trans h1.base).trans hbase⟩
  have hsize2 : isSize s2.cfg N.toNat = true := hcfg ▸ hsize
  have htaps : HoldsTaps s2 N.toNat x := holdsTaps_of_written hlen h1 h2
  obtain ⟨t, hrun3, hend⟩ := runProgram_wait (xformAt_acceptXform (inv_atEdge [] h2.inv) hsize2 hready htaps) (zero_add _)
    (show StagesFit s2.cfg N.toNat x from hcfg ▸ hfit)
  refine ⟨t, ?_, hend⟩
  rw [hedges, pseudoFft, pseudoLoadRe, List.append_assoc, hrun1, pseudoZeroIm, hrun2,
    runProgram_cons_of_edge _ (programEdge_xform true _ huop hsize2 hready), hrun3]

end Sys2Proof.Machine
end

section
/-! PROOFS. The datapath of 40_scaled_complex.md: the results of the four operations (R93 to R96), the arithmetic shift as a floor and
as a shift of bit patterns (R96, R101), and the width of every intermediate value of a butterfly (R99). -/

namespace Sys2Proof.Machine

/-- Settles O16: each operation puts its value on the result output and touches nothing else. -/
theorem complexOperationsComplete : Obligations.ComplexOperationsComplete :=
  fun _ _ _ => ⟨rfl, rfl, rfl⟩

/-! The arithmetic shift (00_scope.md R11). -/

theorem floorShift_eq_floor (v : Int) (sh : Nat) : floorShift v sh = ⌊(v : ℚ) / (2 : ℚ) ^ sh⌋ := by
  rw [floorShift, ← Rat.floor_intCast_div_natCast, Nat.cast_pow, Nat.cast_ofNat]

theorem floorShift_eq_shiftRight (v : Int) (sh : Nat) : floorShift v sh = v >>> sh :=
  (Int.shiftRight_eq_div_pow v sh).symm

/-- A shift leaves a value in its range. -/
theorem fits_floorShift {W : Nat} {v : Int} (h : fits W v) (sh : Nat) : fits W (floorShift v sh) := by
  have hpos : (0 : Int) < ((2 ^ sh : Nat) : Int) := by positivity
  have hgrow : ((2 ^ (W - 1) : Nat) : Int) ≤ ((2 ^ (W - 1) : Nat) : Int) * ((2 ^ sh : Nat) : Int) :=
    le_mul_of_one_le_right (by positivity) hpos
  exact ⟨Int.le_ediv_of_mul_le hpos (by linarith [h.1]), Int.ediv_lt_of_lt_mul hpos (by linarith [h.2])⟩

/-- The pattern of a value of the range holds the value. -/
theorem toInt_ofInt_of_fits {W : Nat} {v : Int} (hW : 0 < W) (h : fits W v) : (BitVec.ofInt W v).toInt = v := by
  push_cast [fits] at h
  exact BitVec.toInt_ofInt_eq_self hW h.1 h.2

/-- Settles O18: the pattern holds the value, and the shift of patterns is that of the values they hold. -/
theorem shiftFillsWithTheSign : Obligations.ShiftFillsWithTheSign := by
  intro W sh v hW hv
  refine ⟨fits_floorShift hv sh, ?_⟩
  rw [BitVec.sshiftRight, toInt_ofInt_of_fits hW hv, floorShift_eq_shiftRight]

theorem execCrsh_natCast (a : ScaledComplex) (sh : Nat) (s : State) :
    execCrsh a (sh : Int) s = deliver (.complex (crsh a sh)) s :=
  if_neg (by omega)

theorem execCrsh_neg {sh : Int} (a : ScaledComplex) (s : State) (hsh : sh < 0) : execCrsh a sh s = .refused .negativeShift :=
  if_pos hsh

/-- Settles O17: a shift that is not negative delivers the shifted parts, which are floors of quotients. -/
theorem shiftRoundsTowardMinusInfinity : Obligations.ShiftRoundsTowardMinusInfinity := by
  intro a sh s
  rw [← floorShift_eq_floor, ← floorShift_eq_floor]
  exact ⟨execCrsh_natCast a sh s, execCrsh_neg a s (by omega)⟩

/-! Bounds on the parts of a ScaledComplex value through the operations (R99). -/

/-- Both parts lie in `-B .. B`. -/
def PartsWithin (B : Int) (v : ScaledComplex) : Prop := |v.re| ≤ B ∧ |v.im| ≤ B

namespace PartsWithin

variable {B C : Int} {v w : ScaledComplex}

theorem mono (h : PartsWithin B v) (hBC : B ≤ C) : PartsWithin C v := ⟨h.1.trans hBC, h.2.trans hBC⟩

theorem cadd (hv : PartsWithin B v) (hw : PartsWithin C w) : PartsWithin (B + C) (cadd v w) :=
  ⟨(abs_add_le _ _).trans (add_le_add hv.1 hw.1), (abs_add_le _ _).trans (add_le_add hv.2 hw.2)⟩

theorem csub (hv : PartsWithin B v) (hw : PartsWithin C w) : PartsWithin (B + C) (csub v w) :=
  ⟨(abs_sub _ _).trans (add_le_add hv.1 hw.1), (abs_sub _ _).trans (add_le_add hv.2 hw.2)⟩

/-- Each part of a product is a sum of two of its four partial products. -/
theorem cmul (hv : PartsWithin B v) (hw : PartsWithin C w) : PartsWithin (B * C + B * C) (cmul v w) := by
  have product_le {x y : Int} (hx : |x| ≤ B) (hy : |y| ≤ C) : |x * y| ≤ B * C :=
    (abs_mul x y).trans_le (mul_le_mul hx hy (abs_nonneg y) ((abs_nonneg x).trans hx))
  exact ⟨(abs_sub _ _).trans (add_le_add (product_le hv.1 hw.1) (product_le hv.2 hw.2)),
    (abs_add_le _ _).trans (add_le_add (product_le hv.1 hw.2) (product_le hv.2 hw.1))⟩

theorem crsh {m : Nat} (hm : 1 ≤ m) (hv : PartsWithin (B + B) v) : PartsWithin B (crsh v m) :=
  ⟨abs_floorShift_le hm hv.1, abs_floorShift_le hm hv.2⟩

/-- `ACC_W` leaves one bit of room above the sum of two products of a tap and an entry (00_scope.md R8, R9). -/
theorem fitsAcc {c : Params} (hc : c.Legal) {M : Nat} (hM : M ≤ c.log2Amax)
    (h : PartsWithin (2 ^ (c.sampleW - 1) * 2 ^ M + 2 ^ (c.sampleW - 1) * 2 ^ M) v) : FitsAcc c v := by
  obtain ⟨-, -, hsample, -, hacc⟩ := hc
  have hroom : (2 : Int) ^ (c.sampleW - 1) * 2 ^ M + 2 ^ (c.sampleW - 1) * 2 ^ M < 2 ^ (c.accW - 1) := by
    rw [← pow_add, ← two_mul, ← pow_succ']
    exact pow_lt_pow_right₀ one_lt_two (by omega)
  have part {x : Int} (hx : |x| ≤ 2 ^ (c.sampleW - 1) * 2 ^ M + 2 ^ (c.sampleW - 1) * 2 ^ M) : fits c.accW x := by
    obtain ⟨hlow, hhigh⟩ := abs_le.mp hx
    push_cast [fits]
    constructor <;> linarith
  exact ⟨part h.1, part h.2⟩

end PartsWithin

theorem partsWithin_of_fitsTap {c : Params} {v : ScaledComplex} (h : FitsTap c v) : PartsWithin (2 ^ (c.sampleW - 1)) v :=
  ⟨abs_le_of_fits h.1, abs_le_of_fits h.2⟩

theorem partsWithin_twiddlePair (M i : Nat) : PartsWithin (2 ^ M) (twiddlePair (2 ^ M) i) := by
  have entry (j : Nat) : |twiddleEntry (2 ^ M) j| ≤ 2 ^ M := by exact_mod_cast abs_twiddleEntry_le (2 ^ M) j
  exact ⟨entry i, entry _⟩

/-- Settles O19: with `B` the bound of a tap times an entry, a product lies in `-2B .. 2B`, its rescaled form, a tap and an entry in
`-B .. B`, and twice `B` fits `ACC_W` bits. -/
theorem datapathWidthSuffices : Obligations.DatapathWidthSuffices := by
  intro c M i e o hc h2 hM her hei hor hoi w
  have hS : (1 : Int) ≤ 2 ^ (c.sampleW - 1) := one_le_pow₀ one_le_two
  have hA : (1 : Int) ≤ 2 ^ M := one_le_pow₀ one_le_two
  have hw : PartsWithin (2 ^ M) w := partsWithin_twiddlePair M i
  have he : PartsWithin (2 ^ (c.sampleW - 1)) e := partsWithin_of_fitsTap ⟨her, hei⟩
  have hprod := (partsWithin_of_fitsTap ⟨hor, hoi⟩).cmul hw
  have hresc := hprod.crsh (m := M) (by omega)
  have hentry := hw.mono (le_mul_of_one_le_left (by positivity) hS)
  have htap := he.mono (le_mul_of_one_le_right (by positivity) hA)
  have hdouble : (2 : Int) ^ (c.sampleW - 1) * 2 ^ M ≤ 2 ^ (c.sampleW - 1) * 2 ^ M + 2 ^ (c.sampleW - 1) * 2 ^ M :=
    le_add_of_nonneg_left (by positivity)
  exact ⟨(hentry.mono hdouble).fitsAcc hc hM, hprod.fitsAcc hc hM, (hresc.mono hdouble).fitsAcc hc hM,
    (htap.cadd hresc).fitsAcc hc hM, (htap.csub hresc).fitsAcc hc hM⟩

end Sys2Proof.Machine
end

section
/-! PROOFS. The entry function `T(A, i)` of 41_twiddle_rom.md: its values at the quarter turns and its range (R111), and its
symmetries (R114). -/

namespace Sys2Proof.Machine

/-! The ends of the first quarter. -/

theorem quarterEntry_zero {m : Nat} (h1 : 1 ≤ m) (h15 : m ≤ 15) : quarterEntry (2 ^ m) 0 = 2 ^ m := by
  have hall : ∀ m ∈ Finset.Icc 1 15, quarterEntry (2 ^ m) 0 = 2 ^ m := by decide +kernel
  exact hall m (Finset.mem_Icc.mpr ⟨h1, h15⟩)

theorem quarterEntry_quarter {m : Nat} (h2 : 2 ≤ m) (h15 : m ≤ 15) : quarterEntry (2 ^ m) (2 ^ m / 4) = 0 := by
  have hall : ∀ m ∈ Finset.Icc 2 15, quarterEntry (2 ^ m) (2 ^ m / 4) = 0 := by decide +kernel
  exact hall m (Finset.mem_Icc.mpr ⟨h2, h15⟩)

theorem twiddleEntry_zero (A : Nat) : twiddleEntry A 0 = quarterEntry A 0 := by
  simp [twiddleEntry]

theorem twiddleEntry_half {A : Nat} (hA : 2 ≤ A) : twiddleEntry A (A / 2) = -(quarterEntry A 0 : Int) := by
  have hmod : A / 2 % A = A / 2 := Nat.mod_eq_of_lt (by omega)
  simp only [twiddleEntry, hmod]
  rw [if_neg (by omega), if_pos le_rfl, Nat.sub_self]

/-- Settles O22: the range is built into the quarter entries, and the two named entries are those at the start of the first quarter. -/
theorem tableEntriesStayInRange : Obligations.TableEntriesStayInRange := by
  intro c m i hc h1 hm A
  have h15 : m ≤ 15 := hm.trans hc.2.1
  obtain ⟨hlow, hhigh⟩ := abs_le.mp (abs_twiddleEntry_le A i)
  refine ⟨hlow, hhigh, ?_, ?_, twiddleEntry_fits (isSize_iff.mpr ⟨m, h1, hm, rfl⟩) i⟩
  · rw [twiddleEntry_zero, quarterEntry_zero h1 h15]
  · rw [twiddleEntry_half (Nat.le_self_pow (by omega) 2), quarterEntry_zero h1 h15]

/-! The four quarters of a turn of `A = 4 H` entries (42_twiddle_tables.md R131). They agree at their common ends because the first
quarter ends in 0. -/

section quarters

variable {H j : Nat}

theorem twiddleEntry_mod (A i : Nat) : twiddleEntry A (i % A) = twiddleEntry A i := by
  simp only [twiddleEntry, Nat.mod_mod]

/-- The expansion with the ends of the quarters written as multiples of `H`. -/
theorem twiddleEntry_of_lt (hj : j < 4 * H) :
    twiddleEntry (4 * H) j =
      if j ≤ H then (quarterEntry (4 * H) j : Int)
      else if j ≤ 2 * H then -(quarterEntry (4 * H) (2 * H - j) : Int)
      else if j ≤ 3 * H then -(quarterEntry (4 * H) (j - 2 * H) : Int)
      else (quarterEntry (4 * H) (4 * H - j) : Int) := by
  have hends : 4 * H / 4 = H ∧ 4 * H / 2 = 2 * H ∧ 3 * (4 * H) / 4 = 3 * H := by omega
  simp only [twiddleEntry, Nat.mod_eq_of_lt hj, hends]

/-- Every index below `4 H` is one of the four mirror images of an index of the first quarter. -/
theorem exists_quarter {i : Nat} (hi : i < 4 * H) :
    ∃ j ≤ H, i = j ∨ i = 2 * H - j ∨ i = 2 * H + j ∨ i = 4 * H - j := by
  rcases le_or_gt i H with h1 | h1
  · exact ⟨i, h1, .inl rfl⟩
  rcases le_or_gt i (2 * H) with h2 | h2
  · exact ⟨2 * H - i, by omega, by omega⟩
  rcases le_or_gt i (3 * H) with h3 | h3
  · exact ⟨i - 2 * H, by omega, by omega⟩
  · exact ⟨4 * H - i, by omega, by omega⟩

variable (hH : 0 < H)

include hH

theorem twiddleEntry_first (hj : j ≤ H) : twiddleEntry (4 * H) j = quarterEntry (4 * H) j := by
  rw [twiddleEntry_of_lt (by omega), if_pos hj]

theorem twiddleEntry_third (hj : j ≤ H) : twiddleEntry (4 * H) (2 * H + j) = -quarterEntry (4 * H) j := by
  rw [twiddleEntry_of_lt (by omega), if_neg (by omega)]
  rcases j.eq_zero_or_pos with rfl | hpos
  · rw [if_pos (by omega), Nat.add_zero, Nat.sub_self]
  · rw [if_neg (by omega), if_pos (by omega), Nat.add_sub_cancel_left]

variable (hq : quarterEntry (4 * H) H = 0)

include hq

theorem twiddleEntry_second (hj : j ≤ H) : twiddleEntry (4 * H) (2 * H - j) = -quarterEntry (4 * H) j := by
  rcases hj.eq_or_lt with rfl | hlt
  · rw [show 2 * j - j = j by omega, twiddleEntry_first hH le_rfl, hq, Nat.cast_zero, neg_zero]
  · rw [twiddleEntry_of_lt (by omega), if_neg (by omega), if_pos (by omega), Nat.sub_sub_self (by omega)]

theorem twiddleEntry_fourth (hj : j ≤ H) : twiddleEntry (4 * H) (4 * H - j) = quarterEntry (4 * H) j := by
  rcases j.eq_zero_or_pos with rfl | hpos
  · rw [Nat.sub_zero, ← twiddleEntry_mod, Nat.mod_self, twiddleEntry_zero]
  rcases hj.eq_or_lt with rfl | hlt
  · rw [show 4 * j - j = 2 * j + j by omega, twiddleEntry_third hH le_rfl, hq, Nat.cast_zero, neg_zero]
  · rw [twiddleEntry_of_lt (by omega), if_neg (by omega), if_neg (by omega), if_neg (by omega),
      Nat.sub_sub_self (by omega)]

/-- `T(A, A - i) = T(A, i)` (41_twiddle_rom.md R114). -/
theorem twiddleEntry_reflect {i : Nat} (hi : i ≤ 4 * H) : twiddleEntry (4 * H) (4 * H - i) = twiddleEntry (4 * H) i := by
  rcases hi.eq_or_lt with rfl | hlt
  · rw [Nat.sub_self, ← twiddleEntry_mod _ (4 * H), Nat.mod_self]
  obtain ⟨j, hj, rfl | rfl | rfl | rfl⟩ := exists_quarter hlt
  · rw [twiddleEntry_fourth hH hq hj, twiddleEntry_first hH hj]
  · rw [show 4 * H - (2 * H - j) = 2 * H + j by omega, twiddleEntry_third hH hj, twiddleEntry_second hH hq hj]
  · rw [show 4 * H - (2 * H + j) = 2 * H - j by omega, twiddleEntry_third hH hj, twiddleEntry_second hH hq hj]
  · rw [Nat.sub_sub_self (by omega), twiddleEntry_fourth hH hq hj, twiddleEntry_first hH hj]

/-- `T(A, i + A/2) = -T(A, i)` (41_twiddle_rom.md R114). -/
theorem twiddleEntry_half_turn (i : Nat) : twiddleEntry (4 * H) (i + 2 * H) = -twiddleEntry (4 * H) i := by
  rw [← twiddleEntry_mod _ i, ← twiddleEntry_mod _ (i + 2 * H), ← Nat.mod_add_mod, twiddleEntry_mod]
  obtain ⟨j, hj, hi | hi | hi | hi⟩ := exists_quarter (Nat.mod_lt i (by omega : 0 < 4 * H)) <;> rw [hi]
  · rw [Nat.add_comm, twiddleEntry_third hH hj, twiddleEntry_first hH hj]
  · rw [show 2 * H - j + 2 * H = 4 * H - j by omega, twiddleEntry_fourth hH hq hj, twiddleEntry_second hH hq hj, neg_neg]
  · rw [show 2 * H + j + 2 * H = j + 4 * H by omega, twiddleEntry_add_self, twiddleEntry_third hH hj,
      twiddleEntry_first hH hj, neg_neg]
  · rw [show 4 * H - j + 2 * H = 2 * H - j + 4 * H by omega, twiddleEntry_add_self, twiddleEntry_fourth hH hq hj,
      twiddleEntry_second hH hq hj]

end quarters

theorem exists_quarter_length {m : Nat} (h2 : 2 ≤ m) : ∃ H, 0 < H ∧ 2 ^ m = 4 * H :=
  ⟨2 ^ (m - 2), Nat.two_pow_pos _, by rw [show 4 = 2 ^ 2 from rfl, ← pow_add, Nat.add_sub_cancel' h2]⟩

/-- Settles O23: the reflection and the half turn hold quarter by quarter, and the other symmetries follow from these two and the
period. -/
theorem tableEntriesAreSymmetric : Obligations.TableEntriesAreSymmetric := by
  intro m h2 h15 A T
  obtain ⟨H, hH, hA⟩ : ∃ H, 0 < H ∧ A = 4 * H := exists_quarter_length h2
  have hq : quarterEntry A (A / 4) = 0 := quarterEntry_quarter h2 h15
  obtain ⟨hhalf, hquarter, hthree⟩ : A / 2 = 2 * H ∧ A / 4 = H ∧ 3 * A / 4 = H + 2 * H := by omega
  rw [hhalf, hquarter, hthree]
  rw [hquarter] at hq
  clear_value A
  subst hA
  have reflect : ∀ i ≤ 4 * H, T (4 * H - i) = T i := fun i => twiddleEntry_reflect hH hq
  have halfTurn : ∀ i, T (i + 2 * H) = -T i := twiddleEntry_half_turn hH hq
  have halfReflect : ∀ i ≤ 2 * H, T (2 * H - i) = -T i := by
    intro i hi
    rw [← neg_eq_iff_eq_neg, ← halfTurn, ← reflect i (by omega)]
    congr 1
    omega
  have period : ∀ i, T (i + 4 * H) = T i := twiddleEntry_add_self (4 * H)
  have hend : T H = 0 := (twiddleEntry_first hH le_rfl).trans (by rw [hq, Nat.cast_zero])
  refine ⟨period, reflect, halfTurn, halfReflect, hend, ?_, ?_, ?_, ?_⟩
  · rw [halfTurn, hend, neg_zero]
  · intro i _ hi
    rw [halfReflect i hi, neg_neg]
  · intro i _ hi
    rw [reflect i hi.le]
  · intro i hi _
    rw [← period (i - 4 * H), Nat.sub_add_cancel hi]

end Sys2Proof.Machine
end

section
/-! PROOFS. The operations of twiddle_rom: the lookup TWLK inside and outside its contract (41_twiddle_rom.md R116), and the entry
that TWGEN makes (R115). -/

namespace Sys2Proof.Machine

/-! The lookup. -/

/-- Inside its contract, with a table that holds its entries, the lookup finds the twiddle pair. -/
theorem lookup_of_defined {s : State} {z P : Nat} (h : LookupDefined s z P) (ht : TableHolds s.tw s.tableA (depth s.tableA)) :
    lookup s z P = some (twiddlePair s.tableA (lookupIndex s.tableA z P)) := by
  have hlt : lookupIndex s.tableA z P < s.tableA := by
    obtain ⟨-, -, -, h4, hPA, hz⟩ := h
    calc s.tableA / P * z < s.tableA / P * P := Nat.mul_lt_mul_of_pos_left hz (Nat.div_pos hPA (by omega))
      _ ≤ s.tableA := Nat.div_mul_le_self s.tableA P
  have entry : ∀ i < depth s.tableA, load s .tw i = twiddleEntry s.tableA i := fun i hi => load_of_find (ht i hi)
  rw [lookup, if_pos h, entry _ (hlt.trans_le (Nat.le_add_right _ _)), entry _ (Nat.add_lt_add_right hlt _), twiddlePair]

theorem execTwlk_of_lookup {s : State} {z P : Nat} {w : ScaledComplex} (h : lookup s z P = some w) :
    execTwlk z P s = .next { s with result := .complex w } := by
  rw [execTwlk, h]
  rfl

theorem execTwlk_refused {s : State} {z P : Nat} (h : ¬ LookupDefined s z P) :
    execTwlk z P s = .refused .lookupOutsideContract := by
  rw [execTwlk, lookup_eq_none_of_not_defined h]

/-- Half a turn of the `P` steps is half the table, and a quarter a quarter. -/
theorem div_mul_div_of_two_pow {m n d : Nat} (hnm : n ≤ m) (hd : d ≤ n) :
    2 ^ m / 2 ^ n * (2 ^ n / 2 ^ d) = 2 ^ m / 2 ^ d := by
  rw [Nat.div_mul_div_comm (pow_dvd_pow 2 hnm) (pow_dvd_pow 2 hd), mul_comm (2 ^ n),
    Nat.mul_div_mul_right _ _ (Nat.two_pow_pos n)]

/-- Settles O20: the lookup finds the pair in the table, and the corner indexes are the start, the half and the quarter of the table,
where the entries are exact. -/
theorem lookupReturnsTheTwiddlePair : Obligations.LookupReturnsTheTwiddlePair := by
  constructor
  · intro s m z P hvalid hbase h2 htable hpow h4 hPA hz
    exact execTwlk_of_lookup (lookup_of_defined ⟨hvalid, h4.trans hPA, hpow, h4, hPA, hz⟩ htable)
  · intro m n h2 h15 h1 hnm A P pair
    obtain ⟨-, -, halfTurn, -, hquarter, hthree, -⟩ := tableEntriesAreSymmetric m h2 h15
    have hzero : twiddleEntry A 0 = (A : Int) := by
      rw [twiddleEntry_zero, quarterEntry_zero (by omega) h15]
    have hhalf : twiddleEntry A (A / 2) = -(A : Int) := by
      rw [← hzero, ← halfTurn 0, Nat.zero_add]
    obtain ⟨H, -, hA⟩ : ∃ H, 0 < H ∧ A = 4 * H := exists_quarter_length h2
    refine ⟨?_, ?_, fun hn => ?_⟩
    · show (twiddleEntry A 0, twiddleEntry A (0 + A / 4)) = _
      rw [hzero, Nat.zero_add, hquarter]
    · have hindex : A / P * (P / 2) = A / 2 := div_mul_div_of_two_pow hnm h1
      show (twiddleEntry A (A / P * (P / 2)), twiddleEntry A (A / P * (P / 2) + A / 4)) = _
      rw [hindex, hhalf, show A / 2 + A / 4 = 3 * A / 4 by omega, hthree]
    · have hindex : A / P * (P / 4) = A / 4 := div_mul_div_of_two_pow hnm hn
      show (twiddleEntry A (A / P * (P / 4)), twiddleEntry A (A / P * (P / 4) + A / 4)) = _
      rw [hindex, hquarter, show A / 4 + A / 4 = A / 2 by omega, hhalf]

/-- Settles O21: outside the contract the lookup gives no pair, and each of the two operations is refused for that. -/
theorem lookupOutsideContractIsRefused : Obligations.LookupOutsideContractIsRefused := by
  intro s z P h
  refine ⟨execTwlk_refused h, ?_⟩
  rintro a b p M rfl ha hb
  exact butterfly_lookupOutsideContract M ha hb h

/-! The generated entry. -/

theorem generatedEntry_fits {s : State} (hc : s.cfg.Legal) (A i : Nat) : fits s.cfg.twW (generatedEntry s A i) := by
  unfold generatedEntry
  split
  · next hA => exact twiddleEntry_fits hA i
  · exact signedLow_fits _ (one_le_spaceW hc .tw)

/-- Settles O25: TWGEN writes the one word, and the entry of a legal base size is `T(A, i)`. -/
theorem tableEntryIsGenerated : Obligations.TableEntryIsGenerated := by
  intro s A i hi
  exact ⟨put s .tw i (generatedEntry s A i), generatedEntry s A i, execTwgen_next A hi, find_write_self _ _ _,
    generatedEntry_of_isSize i, fun hc => generatedEntry_fits hc A i, fun j hj => find_write_ne _ _ hj, rfl⟩

end Sys2Proof.Machine
end

section
/-! PROOFS. The printed first quarters are the rounded cosines (41_twiddle_rom.md R111, R113; 42_twiddle_tables.md R130). A point that
is turned round the circle in fixed point stays near the true point, with an error that grows by a few units a turn, and every
entry is further from a tie than that error. -/

namespace Sys2Proof.Machine

/-! Points of the unit circle in units of `2^-40`. -/

/-- A pair read as a complex number (40_scaled_complex.md R90). -/
def complexValue (v : ScaledComplex) : ℂ := ⟨v.re, v.im⟩

/-- `v` is the point of the unit circle at the angle `x`, in units of `2^-40`, up to `e` units. -/
def NearPoint (v : ScaledComplex) (x e : ℝ) : Prop :=
  ‖complexValue v - ((2 ^ 40 : ℝ) : ℂ) * Complex.exp (x * Complex.I)‖ ≤ e

/-- The point `v` turned by the angle of the point `w`. -/
def turnBy (w v : ScaledComplex) : ScaledComplex := crsh (cmul v w) 40

/-- The point at the angle 0. -/
def turnStart : ScaledComplex := ⟨(2 ^ 40 : Nat), 0⟩

/-- The point at the angle `2π / 4096`, each part rounded down. -/
def turnUnit : ScaledComplex := ⟨1099510334147, 1686629051⟩

/-- The point at the angle `2π / 4096 · 2^n`. -/
def turnDoubled : Nat → ScaledComplex
  | 0 => turnUnit
  | n + 1 => turnBy (turnDoubled n) (turnDoubled n)

theorem complexValue_cmul (v w : ScaledComplex) : complexValue (cmul v w) = complexValue v * complexValue w := by
  apply Complex.ext <;> simp [complexValue, cmul]

theorem abs_floorShift_sub_le (v : Int) (sh : Nat) : |(floorShift v sh : ℝ) - v / 2 ^ sh| ≤ 1 := by
  have hfloor : |((⌊(v : ℚ) / 2 ^ sh⌋ : Int) : ℚ) - v / 2 ^ sh| ≤ 1 := by
    rw [abs_sub_comm, Int.self_sub_floor, abs_of_nonneg (Int.fract_nonneg _)]
    exact (Int.fract_lt_one _).le
  rw [floorShift_eq_floor]
  exact_mod_cast hfloor

/-- A shift rounds each part by less than one unit. -/
theorem norm_crsh_sub_le (v : ScaledComplex) (sh : Nat) :
    ‖complexValue (crsh v sh) - complexValue v / ((2 ^ sh : ℝ) : ℂ)‖ ≤ 2 := by
  refine (Complex.norm_le_abs_re_add_abs_im _).trans ?_
  rw [Complex.sub_re, Complex.sub_im, Complex.div_ofReal_re, Complex.div_ofReal_im]
  have hre : |((crsh v sh).re : ℝ) - v.re / 2 ^ sh| ≤ 1 := abs_floorShift_sub_le v.re sh
  have him : |((crsh v sh).im : ℝ) - v.im / 2 ^ sh| ≤ 1 := abs_floorShift_sub_le v.im sh
  exact (add_le_add hre him).trans_eq one_add_one_eq_two

namespace NearPoint

variable {v w : ScaledComplex} {x y d e : ℝ}

theorem nonneg (h : NearPoint v x e) : 0 ≤ e := (norm_nonneg _).trans h

theorem abs_re_sub_le (h : NearPoint v x e) : |v.re - 2 ^ 40 * Real.cos x| ≤ e := by
  have hre := (Complex.abs_re_le_norm _).trans h
  rwa [Complex.sub_re, Complex.re_ofReal_mul, Complex.exp_ofReal_mul_I_re] at hre

theorem of_parts (hre : |v.re - 2 ^ 40 * Real.cos x| ≤ d) (him : |v.im - 2 ^ 40 * Real.sin x| ≤ e) :
    NearPoint v x (d + e) := by
  refine (Complex.norm_le_abs_re_add_abs_im _).trans ?_
  rw [Complex.sub_re, Complex.sub_im, Complex.re_ofReal_mul, Complex.im_ofReal_mul, Complex.exp_ofReal_mul_I_re,
    Complex.exp_ofReal_mul_I_im]
  exact add_le_add hre him

/-- The errors of two points add up, with their product and the rounding. -/
theorem turnBy (hv : NearPoint v x d) (hw : NearPoint w y e) (hde : d * e ≤ 2 ^ 40) :
    NearPoint (turnBy w v) (x + y) (d + e + 3) := by
  have hround := norm_crsh_sub_le (cmul v w) 40
  have hV := Complex.norm_exp_ofReal_mul_I x
  have hW := Complex.norm_exp_ofReal_mul_I y
  have hd := hv.nonneg
  unfold NearPoint at *
  rw [complexValue_cmul] at hround
  rw [Complex.ofReal_add, add_mul, Complex.exp_add]
  generalize Complex.exp (x * Complex.I) = X at *
  generalize Complex.exp (y * Complex.I) = Y at *
  generalize complexValue v = V at *
  generalize complexValue w = W at *
  have hprod : ‖(V - ((2 ^ 40 : ℝ) : ℂ) * X) * (W - ((2 ^ 40 : ℝ) : ℂ) * Y) / ((2 ^ 40 : ℝ) : ℂ)‖ ≤ 1 := by
    rw [norm_div, norm_mul, Complex.norm_of_nonneg (by positivity), div_le_one (by positivity)]
    exact (mul_le_mul hv hw (norm_nonneg _) hd).trans hde
  calc _ = ‖complexValue (Machine.turnBy w v) - V * W / ((2 ^ 40 : ℝ) : ℂ) +
        (V - ((2 ^ 40 : ℝ) : ℂ) * X) * (W - ((2 ^ 40 : ℝ) : ℂ) * Y) / ((2 ^ 40 : ℝ) : ℂ) +
        (V - ((2 ^ 40 : ℝ) : ℂ) * X) * Y + X * (W - ((2 ^ 40 : ℝ) : ℂ) * Y)‖ := by
          congr 1
          field_simp
          ring
    _ ≤ 2 + 1 + d * 1 + 1 * e := by
          refine norm_add_le_of_le (norm_add_le_of_le (norm_add_le_of_le hround hprod) ?_) ?_
          · rw [norm_mul, hW]
            exact mul_le_mul_of_nonneg_right hv zero_le_one
          · rw [norm_mul, hV]
            exact mul_le_mul_of_nonneg_left hw zero_le_one
    _ = d + e + 3 := by ring

end NearPoint

theorem nearPoint_turnStart : NearPoint turnStart 0 0 := by
  have hparts : NearPoint turnStart 0 (0 + 0) := .of_parts (by norm_num [turnStart]) (by norm_num [turnStart])
  rwa [add_zero] at hparts

/-- The series of the cosine and the sine at `2π / 4096`, with twenty digits of `π`. -/
theorem nearPoint_turnUnit : NearPoint turnUnit (2 * Real.pi / 4096) 3 := by
  have hpi := Real.pi_gt_d20
  have hpi' := Real.pi_lt_d20
  set x := 2 * Real.pi / 4096 with hx
  have hlow : 0.0015339807878856412 ≤ x := by rw [hx]; linarith
  have hhigh : x ≤ 0.0015339807878856413 := by rw [hx]; linarith
  have hpos : 0 ≤ x := le_trans (by norm_num) hlow
  have lowPow := pow_le_pow_left₀ (by norm_num) hlow
  have highPow := pow_le_pow_left₀ hpos hhigh
  have hcos := Real.cos_bound (x := x) (by rw [abs_of_nonneg hpos]; linarith)
  have hsin := Real.sin_bound (x := x) (by rw [abs_of_nonneg hpos]; linarith)
  rw [abs_of_nonneg hpos, abs_le] at hcos hsin
  have hre : |(turnUnit.re : ℝ) - 2 ^ 40 * Real.cos x| ≤ 1 := by
    have hlow2 := lowPow 2
    have hhigh2 := highPow 2
    have hhigh4 := highPow 4
    rw [abs_le]
    norm_num [turnUnit] at hlow2 hhigh2 hhigh4 ⊢
    constructor <;> linarith
  have him : |(turnUnit.im : ℝ) - 2 ^ 40 * Real.sin x| ≤ 1 := by
    have hlow3 := lowPow 3
    have hhigh3 := highPow 3
    have hhigh5 := highPow 5
    rw [abs_le]
    norm_num [turnUnit] at hlow3 hhigh3 hhigh5 ⊢
    constructor <;> linarith
  exact (NearPoint.of_parts hre him).trans (by norm_num)

/-- Each doubling of the angle doubles the error and adds a rounding. -/
theorem nearPoint_turnDoubled {n : Nat} (hn : n ≤ 11) :
    NearPoint (turnDoubled n) (2 * Real.pi / 4096 * 2 ^ n) (6 * 2 ^ n - 3) := by
  induction n with
  | zero =>
    norm_num
    exact nearPoint_turnUnit
  | succ n ih =>
    have hpow : (2 : ℝ) ^ n ≤ 2 ^ 11 := pow_le_pow_right₀ one_le_two (by omega)
    have hpos : (1 : ℝ) ≤ 2 ^ n := one_le_pow₀ one_le_two
    have hnear := ih (by omega)
    have hturn := hnear.turnBy hnear (by nlinarith)
    rw [turnDoubled, pow_succ]
    convert hturn using 1 <;> ring

/-! Entries against points. -/

/-- The entry `q` is the integer nearest to `A` times the cosine, for every cosine within `6 · 1024` units of `c`. -/
def entryRounds (A q : Nat) (c : Int) : Bool :=
  decide (2 * (((q * 2 ^ 40 : Nat) : Int) - A * c).natAbs + 12 * 1024 * A < 2 ^ 40)

/-- The entries of a list against a point that is turned by `w` from entry to entry. -/
def entriesRound (A : Nat) (w : ScaledComplex) : List Nat → ScaledComplex → Bool
  | [], _ => true
  | q :: rest, v => entryRounds A q v.re && entriesRound A w rest (turnBy w v)

theorem abs_sub_cos_lt_of_entryRounds {A q : Nat} {v : ScaledComplex} {x e : ℝ} (h : entryRounds A q v.re = true)
    (hv : NearPoint v x e) (he : e ≤ 6 * 1024) : |(q : ℝ) - A * Real.cos x| < 1 / 2 := by
  have hcheck : (2 : ℝ) * |(q : ℝ) * 2 ^ 40 - A * v.re| + 12 * 1024 * A < 2 ^ 40 := by
    have hreal : (2 : ℝ) * ((((q * 2 ^ 40 : Nat) : Int) - A * v.re).natAbs : ℝ) + 12 * 1024 * A < 2 ^ 40 := by
      exact_mod_cast of_decide_eq_true h
    rw [Nat.cast_natAbs] at hreal
    convert hreal using 4
    push_cast
    ring_nf
  have hcos : (A : ℝ) * |v.re - 2 ^ 40 * Real.cos x| ≤ A * (6 * 1024) :=
    mul_le_mul_of_nonneg_left (hv.abs_re_sub_le.trans he) (Nat.cast_nonneg A)
  have hscaled : |(q : ℝ) - A * Real.cos x| * 2 ^ 40 ≤
      |(q : ℝ) * 2 ^ 40 - A * v.re| + A * |v.re - 2 ^ 40 * Real.cos x| := calc
    _ = |((q : ℝ) - A * Real.cos x) * 2 ^ 40| := by
      rw [abs_mul, abs_of_pos (show (0 : ℝ) < 2 ^ 40 by positivity)]
    _ = |((q : ℝ) * 2 ^ 40 - A * v.re) + A * (v.re - 2 ^ 40 * Real.cos x)| := by
      congr 1
      ring
    _ ≤ _ := by
      refine (abs_add_le _ _).trans_eq ?_
      rw [abs_mul (A : ℝ), Nat.abs_cast]
  linarith

theorem abs_sub_cos_lt_of_entriesRound {A : Nat} {w : ScaledComplex} {y e : ℝ} (hw : NearPoint w y e) (he : e ≤ 2 ^ 14)
    {l : List Nat} {v : ScaledComplex} {x d : ℝ} (h : entriesRound A w l v = true) (hv : NearPoint v x d)
    {j : Nat} (hj : j < l.length) (hd : d + j * (e + 3) ≤ 6 * 1024) :
    |((l.getD j 0 : Nat) : ℝ) - A * Real.cos (x + j * y)| < 1 / 2 := by
  have he0 := hw.nonneg
  induction l generalizing v x d j with
  | nil => exact absurd hj (Nat.not_lt_zero j)
  | cons q rest ih =>
    obtain ⟨hq, hrest⟩ := Bool.and_eq_true_iff.mp h
    cases j with
    | zero =>
      rw [Nat.cast_zero, zero_mul, add_zero] at hd ⊢
      exact abs_sub_cos_lt_of_entryRounds hq hv hd
    | succ j =>
      push_cast at hd ⊢
      have hd0 := hv.nonneg
      have hj0 : (0 : ℝ) ≤ j * (e + 3) := by positivity
      have hturn := hv.turnBy hw (by nlinarith)
      have hnext := ih hrest hturn (Nat.lt_of_succ_lt_succ hj) (by linarith)
      rwa [show x + (j + 1) * y = x + y + j * y by ring]

/-- The printed quarters, entry by entry. -/
theorem quarterList_rounds : ∀ m ∈ Finset.Icc 1 12,
    entriesRound (2 ^ m) (turnDoubled (12 - m)) (quarterList m) turnStart = true ∧ 2 ^ m / 4 < (quarterList m).length := by
  decide +kernel

/-! The whole table. -/

/-- The angle `2π · j / A` of a table index. -/
noncomputable def tableAngle (A j : Nat) : ℝ := 2 * Real.pi * j / A

/-- The points of a base size stand `2^(12-m)` units of the angle `2π / 4096` apart. -/
theorem mul_turnAngle {m : Nat} (h12 : m ≤ 12) (j : Nat) :
    (j : ℝ) * (2 * Real.pi / 4096 * 2 ^ (12 - m)) = tableAngle (2 ^ m) j := by
  have hpow : (2 : ℝ) ^ (12 - m) * 2 ^ m = 4096 := by
    rw [← pow_add, Nat.sub_add_cancel h12]
    norm_num
  rw [tableAngle, Nat.cast_pow, Nat.cast_ofNat, eq_div_iff (by positivity)]
  linear_combination (2 * Real.pi * j / 4096) * hpow

/-- The printed first quarter of every base size is rounded cosines. -/
theorem quarterList_getD_rounds {m j : Nat} (h1 : 1 ≤ m) (h12 : m ≤ 12) (hj : j ≤ 2 ^ m / 4) :
    |(((quarterList m).getD j 0 : Nat) : ℝ) - (2 ^ m : Nat) * Real.cos (tableAngle (2 ^ m) j)| < 1 / 2 := by
  obtain ⟨hlist, hlength⟩ := quarterList_rounds m (Finset.mem_Icc.mpr ⟨h1, h12⟩)
  have hsteps : 2 ^ (12 - m) * j ≤ 1024 := calc
    2 ^ (12 - m) * j ≤ 2 ^ (12 - m) * (2 ^ m / 4) := Nat.mul_le_mul_left _ hj
    _ ≤ 2 ^ (12 - m) * 2 ^ m / 4 := Nat.mul_div_le_mul_div_assoc _ _ _
    _ = 2 ^ 12 / 4 := by rw [← pow_add, Nat.sub_add_cancel h12]
    _ = 1024 := by norm_num
  have hsteps' : (2 : ℝ) ^ (12 - m) * j ≤ 1024 := by exact_mod_cast hsteps
  have hpow : (2 : ℝ) ^ (12 - m) ≤ 2 ^ 11 := pow_le_pow_right₀ one_le_two (by omega)
  have hround := abs_sub_cos_lt_of_entriesRound (nearPoint_turnDoubled (by omega)) (by linarith) hlist nearPoint_turnStart
    (hj.trans_lt hlength) (by linarith)
  rwa [zero_add, mul_turnAngle h12] at hround

/-- The bound that the model writes into an entry changes no printed one. -/
theorem quarterEntry_rounds {m j : Nat} (h1 : 1 ≤ m) (h12 : m ≤ 12) (hj : j ≤ 2 ^ m / 4) :
    |(quarterEntry (2 ^ m) j : ℝ) - (2 ^ m : Nat) * Real.cos (tableAngle (2 ^ m) j)| < 1 / 2 := by
  have hround := quarterList_getD_rounds h1 h12 hj
  have hle : (quarterList m).getD j 0 ≤ 2 ^ m := by
    have hcos := mul_le_of_le_one_right (Nat.cast_nonneg (α := ℝ) (2 ^ m)) (Real.cos_le_one (tableAngle (2 ^ m) j))
    have hlt : (((quarterList m).getD j 0 : Nat) : ℝ) < ((2 ^ m + 1 : Nat) : ℝ) := by
      rw [Nat.cast_succ]
      linarith [(abs_lt.mp hround).2]
    exact Nat.lt_succ_iff.mp (Nat.cast_lt.mp hlt)
  have h4096 : 2 ^ m ≤ 4096 := Nat.pow_le_pow_right Nat.two_pos h12
  rwa [quarterEntry, if_pos h4096, Nat.log2_two_pow, min_eq_right hle]

/-! The other quarters and the other turns. -/

section angle

variable {B j : Nat}

theorem cos_tableAngle_mod {A : Nat} (hA : 0 < A) (i : Nat) :
    Real.cos (tableAngle A (i % A)) = Real.cos (tableAngle A i) := by
  have hi : (i : ℝ) = A * (i / A : Nat) + (i % A : Nat) := by exact_mod_cast (Nat.div_add_mod i A).symm
  have hangle : tableAngle A i = tableAngle A (i % A) + (i / A : Nat) * (2 * Real.pi) := by
    rw [tableAngle, tableAngle, hi]
    field_simp
    ring
  rw [hangle, Real.cos_add_nat_mul_two_pi]

theorem cos_tableAngle_half_sub (hB : 0 < B) (hj : j ≤ B) :
    Real.cos (tableAngle (2 * B) (B - j)) = -Real.cos (tableAngle (2 * B) j) := by
  rw [← Real.cos_pi_sub, tableAngle, tableAngle, Nat.cast_sub hj]
  congr 1
  push_cast
  field_simp

theorem cos_tableAngle_sub_half (hB : 0 < B) (hj : B ≤ j) :
    Real.cos (tableAngle (2 * B) (j - B)) = -Real.cos (tableAngle (2 * B) j) := by
  rw [← Real.cos_sub_pi, tableAngle, tableAngle, Nat.cast_sub hj]
  congr 1
  push_cast
  field_simp

theorem cos_tableAngle_sub {A : Nat} (hA : 0 < A) (hj : j ≤ A) :
    Real.cos (tableAngle A (A - j)) = Real.cos (tableAngle A j) := by
  rw [← Real.cos_two_pi_sub, tableAngle, tableAngle, Nat.cast_sub hj]
  congr 1
  field_simp
  ring

end angle

theorem abs_neg_sub_mul_neg (q a c : ℝ) : |-q - a * -c| = |q - a * c| := by
  rw [← abs_neg]
  congr 1
  ring

/-- The expansion of the first quarter rounds as the first quarter does. -/
theorem twiddleEntry_rounds_of_lt {m j : Nat} (h1 : 1 ≤ m) (h12 : m ≤ 12) (hj : j < 2 ^ m) :
    |(twiddleEntry (2 ^ m) j : ℝ) - (2 ^ m : Nat) * Real.cos (tableAngle (2 ^ m) j)| < 1 / 2 := by
  have hround := fun i (hi : i ≤ 2 ^ m / 4) => quarterEntry_rounds h1 h12 hi
  obtain ⟨B, hB, hA⟩ : ∃ B, 0 < B ∧ 2 ^ m = 2 * B :=
    ⟨2 ^ (m - 1), by positivity, by rw [← pow_succ', Nat.sub_add_cancel h1]⟩
  rw [hA] at hj hround ⊢
  rw [twiddleEntry]
  simp only [Nat.mod_eq_of_lt hj, Nat.mul_div_cancel_left B Nat.two_pos]
  split_ifs with hfirst hsecond hthird
  · exact_mod_cast hround j hfirst
  · have h := hround (B - j) (by omega)
    rw [cos_tableAngle_half_sub hB hsecond, ← abs_neg_sub_mul_neg, neg_neg] at h
    exact_mod_cast h
  · have h := hround (j - B) (by omega)
    rw [cos_tableAngle_sub_half hB (by omega), ← abs_neg_sub_mul_neg, neg_neg] at h
    exact_mod_cast h
  · have h := hround (2 * B - j) (by omega)
    rw [cos_tableAngle_sub (by omega) hj.le] at h
    exact_mod_cast h

/-- Settles O24: the printed quarters stand the comparison with points turned round the circle, and the expansion follows the symmetries
of the cosine. -/
theorem tableEntriesAreRoundedCosines : Obligations.TableEntriesAreRoundedCosines := by
  intro m i h1 h12
  have hpos : 0 < 2 ^ m := Nat.two_pow_pos m
  have hangle : -(2 * Real.pi) * (i : ℝ) / (2 ^ m : ℝ) = -tableAngle (2 ^ m) i := by
    rw [tableAngle, Nat.cast_pow, Nat.cast_ofNat]
    ring
  have hround := twiddleEntry_rounds_of_lt h1 h12 (Nat.mod_lt i hpos)
  rw [twiddleEntry_mod, cos_tableAngle_mod hpos, Nat.cast_pow, Nat.cast_ofNat] at hround
  rwa [hangle, Real.cos_neg]

end Sys2Proof.Machine
end

section
/-! PROOFS. What the Engine never does: it makes no call outside a contract (41_twiddle_rom.md R117, 44_butterfly_engine.md R160), and
it writes no word of a valid table (41_twiddle_rom.md R119). -/

namespace Sys2Proof.Machine

/-! Answers that are a next state or an overflow. -/

/-- The answer is a next state, or the overflow of a value of `W` bits at a tap below `n`; it is no refusal. -/
def CompletesOrOverflows (n W : Nat) (r : Answer) : Prop :=
  (∃ t, r = .next t) ∨ ∃ sp j v, r = .fault (.overflow sp j v) ∧ sp ≠ .tw ∧ j < n ∧ ¬ fits W v

theorem completesOrOverflows_next (n W : Nat) (s : State) : CompletesOrOverflows n W (.next s) := .inl ⟨s, rfl⟩

theorem CompletesOrOverflows.andThen {n W : Nat} {r : Answer} {f : State → Answer} (hr : CompletesOrOverflows n W r)
    (hf : ∀ t, r = .next t → CompletesOrOverflows n W (f t)) : CompletesOrOverflows n W (andThen r f) := by
  obtain ⟨t, rfl⟩ | ⟨sp, j, v, rfl, hfault⟩ := hr
  · exact hf t rfl
  · exact .inr ⟨sp, j, v, rfl, hfault⟩

section stores

variable {s : State} {n : Nat}

theorem store_completesOrOverflows {sp : Space} {j : Nat} (v : Int) (hsp : sp ≠ .tw) (hj : j < n) :
    CompletesOrOverflows n s.cfg.sampleW (store sp j v s) := by
  rcases store_eq sp j v s with ⟨-, he⟩ | ⟨hv, he⟩ <;> rw [he]
  · exact completesOrOverflows_next n _ _
  · exact .inr ⟨sp, j, v, rfl, hsp, hj, hv⟩

theorem execPair0_completesOrOverflows {i : Nat} (hin : i + 1 < n) (hn : n ≤ s.cfg.amax) :
    CompletesOrOverflows n s.cfg.sampleW (execPair0 i s) := by
  rw [execPair0, if_pos (hin.trans_le hn)]
  refine (store_completesOrOverflows _ (by decide) (by omega)).andThen fun t ht => ?_
  obtain ⟨-, rfl⟩ := store_next ht
  exact store_completesOrOverflows _ (by decide) hin

theorem storeTap_completesOrOverflows {j : Nat} (v : ScaledComplex) (hj : j < n) :
    CompletesOrOverflows n s.cfg.sampleW (storeTap j v s) := by
  refine (store_completesOrOverflows _ (by decide) hj).andThen fun t ht => ?_
  obtain ⟨-, rfl⟩ := store_next ht
  exact store_completesOrOverflows _ (by decide) hj

theorem butterfly_completesOrOverflows {a b z p : Nat} (m : Nat) (ha : a < n) (hb : b < n) (hn : n ≤ s.cfg.amax)
    (hdef : LookupDefined s z (2 * p)) : CompletesOrOverflows n s.cfg.sampleW (butterfly a b z p m s) := by
  simp only [butterfly, ha.trans_le hn, hb.trans_le hn, and_self, if_true, lookup, if_pos hdef]
  refine (storeTap_completesOrOverflows (s := s.setOpnd _) _ ha).andThen fun t ht => ?_
  obtain ⟨-, -, rfl⟩ := storeTap_next ht
  exact storeTap_completesOrOverflows _ hb

theorem execDbfly_completesOrOverflows {i k2 z p : Nat} (m : Nat) (hi : i + 1 + k2 < n) (hn : n ≤ s.cfg.amax)
    (hdef : LookupDefined s z (2 * p)) (hdef' : LookupDefined s (nextZ z p) (2 * p)) :
    CompletesOrOverflows n s.cfg.sampleW (execDbfly i k2 z p m s) := by
  refine (butterfly_completesOrOverflows m (by omega) (by omega) hn hdef).andThen fun t ht => ?_
  rw [butterfly_frame ht]
  refine (butterfly_completesOrOverflows (s := { s with re := t.re, im := t.im, opnd := t.opnd }) m (by omega) hi hn
    hdef').andThen fun u _ => ?_
  exact completesOrOverflows_next n _ _

end stores

/-! The operations of the Engine. -/

theorem nextZ_lt {z p : Nat} (hz : z < p) : nextZ z p < p := by
  unfold nextZ
  split <;> omega

/-- Every lookup of a stage is inside the contract (41_twiddle_rom.md R117, 44_butterfly_engine.md R161). -/
theorem StageCounters.lookupDefined {s : State} {z : Nat} (h : StageCounters s.seq) (hx : XformOk s) (hz : z < s.seq.p) :
    LookupDefined s z (2 * s.seq.p) := by
  obtain ⟨hsize, hvalid, hbase⟩ := hx
  obtain ⟨h4k, -, hp, -⟩ := h.bounds hsize.1 hsize.2
  have hcnt := h.count
  have hpow : isPow2 (2 * s.seq.p) = true := isPow2_iff.mpr ⟨s.seq.g + 2, by omega, by rw [h.halfTurn, ← pow_succ']⟩
  exact ⟨hvalid, by omega, hpow, by omega, by omega, by omega⟩

/-- Both pairs of a dual butterfly end inside the transform: the group of the index `i` ends at or below `N`
(44_butterfly_engine.md R160). -/
theorem StageCounters.lastTap_lt {c : Params} {q : Seq} (h : StageCounters q) (hsize : isSize c q.n = true)
    (hm : q.m = Nat.log2 q.n) (hin : q.i + 3 ≤ q.n) : q.i + 1 + 2 * q.k < q.n := by
  obtain ⟨G, hG, -⟩ := exists_groups hsize (h.stage.trans_eq hm)
  rw [← mul_assoc, ← h.group] at hG
  have hcnt := h.count
  have htap : 4 * q.k * (q.i / (4 * q.k)) + 2 * q.cnt = q.i := h.tap ▸ Nat.div_add_mod q.i (4 * q.k)
  have hgroup : q.i / (4 * q.k) < G := Nat.div_lt_of_lt_mul (by omega)
  have hend : 4 * q.k * (q.i / (4 * q.k) + 1) ≤ q.n := hG ▸ Nat.mul_le_mul_left _ hgroup
  rw [mul_add_one] at hend
  omega

theorem engineOp_completesOrOverflows {s : State} (h : Inv s) : CompletesOrOverflows s.seq.n s.cfg.sampleW (engineOp s) := by
  obtain ⟨-, hc, -⟩ := inv_iff.mp h
  obtain ⟨hbuild, hpermute, hstage0, -⟩ := hc.seq
  rcases engineOp_eq s with ⟨-, he⟩ | ⟨-, i, hi, he⟩ <;> rw [he]
  · exact completesOrOverflows_next _ _ s
  refine CompletesOrOverflows.andThen ?_ fun t _ => completesOrOverflows_next _ _ _
  cases hph : s.seq.phase <;> simp only [nextOperation, hph, reduceCtorEq, Option.some.injEq] at hi <;> subst hi
  case building =>
    obtain ⟨hsize, -, hlt, -⟩ := hbuild hph
    exact .inl ⟨_, execTwgen_next s.seq.n (hlt.trans_le (depth_le_of_isSize hsize.1))⟩
  case permute => exact completesOrOverflows_next _ _ _
  case stage0 =>
    obtain ⟨hx, -, hin⟩ := hstage0 hph
    exact execPair0_completesOrOverflows hin (le_amax_of_isSize hx.1.1)
  case general =>
    obtain ⟨hx, hstage, hin⟩ := seqOk_general hc.seq hph
    obtain ⟨-, -, -, hz⟩ := hstage.bounds hx.1.1 hx.1.2
    exact execDbfly_completesOrOverflows s.seq.m (hstage.lastTap_lt hx.1.1 hx.1.2 hin) (le_amax_of_isSize hx.1.1)
      (hstage.lookupDefined hx hz) (hstage.lookupDefined hx (nextZ_lt hz))

/-! The Host's access to a running block. -/

/-- While BUSY the Host's access reaches the error report and the read port alone (60_exceptions.md R218). -/
theorem HostEffect.busy_frame {s u : State} (h : HostEffect s u) (hb : s.status.busy = true) :
    u.seq = s.seq ∧ u.tw = s.tw ∧ u.tableA = s.tableA ∧ u.status.tableValid = s.status.tableValid := by
  have idle {P : Prop} (hidle : s.status.busy = false) : P := absurd (hb.symm.trans hidle) Bool.false_ne_true.symm
  cases h with
  | nothing => exact ⟨rfl, rfl, rfl, rfl⟩
  | rejected c => exact ⟨rfl, rfl, rfl, reject_tableValid c s⟩
  | read d => exact ⟨rfl, rfl, rfl, rfl⟩
  | sample d hidle => exact idle hidle
  | build hidle => exact idle hidle
  | xform hidle => exact idle hidle
  | release hidle => exact idle hidle
  | clrstat hidle => exact idle hidle

theorem portEdge_completesOrOverflows (c : PortCycle) {s : State} (h : Inv s) :
    (∃ t, portEdge c s = .next t) ∨
      s.status.busy = true ∧ CompletesOrOverflows s.seq.n s.cfg.sampleW (portEdge c s) := by
  unfold portEdge
  split
  · exact .inl ⟨_, rfl⟩
  obtain ⟨u, hu⟩ := hostAccess_next c s
  rw [hu, andThen_next]
  split
  · next hb =>
    have heffect := hostAccess_effect hu
    rw [← (heffect.busy_frame hb.1).1, ← heffect.cfg_eq]
    exact .inr ⟨hb.1, engineOp_completesOrOverflows (heffect.inv h)⟩
  · exact .inl ⟨u, rfl⟩

/-- With no operation on the select lines a step is an edge of the port. -/
theorem step_eq_portEdge {s : State} (huop : s.uop = none) : ∃ c rest, step s = portEdge c (atEdge s rest) := by
  cases hhost : s.host with
  | cons c rest => exact ⟨c, rest, step_cycle ⟨huop, hhost⟩⟩
  | nil =>
    refine ⟨quietCycle true, [], ?_⟩
    rw [step_alone ⟨hhost, huop⟩]
    simp [portEdge, quietCycle, hostAccess, show (atEdge s []).status = s.status from rfl]

/-- Settles O38: only the Engine of a busy block can stop, its operands are inside the contracts by the invariant, and what is left is a
store that does not fit. -/
theorem engineStaysInsideItsContracts : Obligations.EngineStaysInsideItsContracts := by
  intro s h
  obtain ⟨-, -, huop⟩ := inv_iff.mp h
  obtain ⟨c, rest, hstep⟩ := step_eq_portEdge huop
  rw [hstep]
  rcases portEdge_completesOrOverflows c (inv_atEdge rest h) with hnext | ⟨hb, hnext | ⟨sp, j, v, hfault, hsp, hj, hv⟩⟩
  · exact .inl hnext
  · exact .inl hnext
  · exact .inr ⟨sp, j, v, hfault, hsp, hj, hv, hb⟩

/-! The table while it is valid. -/

theorem advance_tableA {ph : Phase} (hph : ph ≠ .building) (s : State) : (advance ph s).tableA = s.tableA := by
  cases ph with
  | building => exact absurd rfl hph
  | idle => rfl
  | permute => rfl
  | stage0 =>
    simp only [advance, afterPair0]
    split_ifs <;> rfl
  | general =>
    simp only [advance, afterDbfly]
    split_ifs <;> rfl

/-- An Engine that runs with a valid table does not build, and no other operation writes the table. -/
theorem engineOp_keeps_table {s t : State} (h : Inv s) (hv : s.status.tableValid = true) (ht : engineOp s = .next t) :
    t.tw = s.tw ∧ t.tableA = s.tableA := by
  obtain ⟨-, hc, -⟩ := inv_iff.mp h
  obtain ⟨hbuild, -⟩ := hc.seq
  have hph : s.seq.phase ≠ .building := fun hph => by simp [(hbuild hph).2.1] at hv
  rcases engineOp_next ht with ⟨-, rfl⟩ | ⟨i, u, hi, hu, rfl⟩
  · exact ⟨rfl, rfl⟩
  rw [advance_tableA hph, advance_frame]
  show u.tw = s.tw ∧ u.tableA = s.tableA
  cases hph' : s.seq.phase <;> simp only [nextOperation, hph', reduceCtorEq, Option.some.injEq] at hi <;> subst hi
  case building => exact absurd hph' hph
  case permute =>
    obtain ⟨w, hw, hframe⟩ := execBrpass_next s.seq.n s
    obtain rfl : w = u := by injection hw.symm.trans hu
    rw [hframe]
    exact ⟨rfl, rfl⟩
  case stage0 =>
    obtain ⟨-, -, -, rfl⟩ := execPair0_next hu
    exact ⟨rfl, by simp⟩
  case general =>
    obtain ⟨s1, s2, h1, h2, rfl⟩ := execDbfly_next hu
    rw [butterfly_frame h2, butterfly_frame h1]
    exact ⟨rfl, rfl⟩

/-- An access after which the table is valid has not written it: only the acceptance of `BUILD` and of `RELEASE` does. -/
theorem HostEffect.keeps_table {s u : State} (h : HostEffect s u) (hv : u.status.tableValid = true) :
    u.tw = s.tw ∧ u.tableA = s.tableA := by
  cases h with
  | nothing => exact ⟨rfl, rfl⟩
  | rejected c => exact ⟨rfl, rfl⟩
  | read d => exact ⟨rfl, rfl⟩
  | @sample sp i d hb hsp hi =>
    cases sp with
    | re => exact ⟨rfl, rfl⟩
    | im => exact ⟨rfl, rfl⟩
    | tw => exact absurd rfl hsp
  | build hb hA => exact absurd hv Bool.false_ne_true
  | xform hb hN hvalid hA => exact ⟨rfl, rfl⟩
  | release hb hvalid => exact absurd hv Bool.false_ne_true
  | clrstat hb => exact ⟨rfl, rfl⟩

/-- Settles O40: a reset leaves no valid table, the Host's access ends its validity when it writes it, and the Engine writes it in
`BUILDING` alone. -/
theorem tableIsReadOnlyWhileValid : Obligations.TableIsReadOnlyWhileValid := by
  intro s t h hstep hs ht
  rcases step_next hstep with ⟨u, i, hu, -⟩ | ⟨-, c, rest, -, hedge⟩
  · obtain ⟨-, -, huop⟩ := inv_iff.mp h
    simp [huop] at hu
  · rcases portEdge_next hedge with ⟨-, rfl⟩ | ⟨-, u, hu, rfl | ⟨hb, -, hop⟩⟩
    · exact absurd ht Bool.false_ne_true
    · exact hu.keeps_table ht
    · obtain ⟨-, htw, hbase, hvalid⟩ := hu.busy_frame hb
      obtain ⟨htw', hbase'⟩ := engineOp_keeps_table (hu.inv (inv_atEdge rest h)) (hvalid.trans hs) hop
      exact ⟨htw'.trans htw, hbase'.trans hbase⟩

end Sys2Proof.Machine
end

section
/-! PROOFS. The bit reversal of 43_bit_reversal.md: its value as a sum of mirrored bits (R135), the involution (R136), the printed values
(R141), and the reorder pass on a state of any contents (R137, R139). -/

namespace Sys2Proof.Machine

/-! The index (R135, R136, R141). -/

theorem bitReverse_two_pow (j M : Nat) : bitReverse j (2 ^ M) = reverseBits M j := by
  rw [bitReverse, Nat.log2_two_pow]

/-- The recursion of `reverseBits` puts bit `b` at place `m - 1 - b`. -/
theorem reverseBits_eq_sum (m j : Nat) : reverseBits m j = ∑ b ∈ Finset.range m, j / 2 ^ b % 2 * 2 ^ (m - 1 - b) := by
  induction m generalizing j with
  | zero => rfl
  | succ m ih =>
    rw [Finset.sum_range_succ', reverseBits, ih, add_comm]
    refine congrArg₂ (· + ·) (Finset.sum_congr rfl fun b _ => ?_) (by simp)
    rw [pow_succ', ← Nat.div_div_eq_div_mul, show m + 1 - 1 - (b + 1) = m - 1 - b by omega]

theorem execBrev_of_lt {s : State} {j N : Nat} (hN : isSize s.cfg N = true) (hj : j < N) :
    execBrev j N s = deliver (.index (bitReverse j N)) s :=
  if_pos ⟨hN, hj⟩

/-- Inside the contract and outside it, BREV delivers an index. -/
theorem execBrev_next (j N : Nat) (s : State) : ∃ r, execBrev j N s = .next { s with result := .index r } := by
  unfold execBrev
  split
  · exact ⟨_, rfl⟩
  · exact ⟨_, rfl⟩

/-- Settles O26: the delivered index is `reverseBits M j`, which is the sum. -/
theorem bitReversalMirrorsTheBits : Obligations.BitReversalMirrorsTheBits := by
  refine fun s j M => ⟨fun h1 hM hj => ?_, fun N => execBrev_next j N s⟩
  rw [← reverseBits_eq_sum, ← bitReverse_two_pow]
  have hN : isSize s.cfg (2 ^ M) = true := isSize_iff.mpr ⟨M, h1, hM, rfl⟩
  exact ⟨execBrev_of_lt hN hj, bitReverse_lt j hN⟩

/-- Settles O27: the index is its own inverse on `0 .. N-1`; the bijection and the disjointness of the pairs follow from this. -/
theorem bitReversalIsAnInvolution : Obligations.BitReversalIsAnInvolution := by
  intro M _ N
  have hlt : ∀ j, bitReverse j N < N := fun j => bitReverse_two_pow j M ▸ reverseBits_lt M j
  have hinvol : Set.LeftInvOn (bitReverse · N) (bitReverse · N) (Set.Iio N) := fun j hj => by
    simpa only [N, bitReverse_two_pow] using reverseBits_reverseBits hj
  refine ⟨fun j hj => ⟨hlt j, hinvol hj⟩,
    Set.InvOn.bijOn ⟨hinvol, hinvol⟩ (fun j _ => hlt j) (fun j _ => hlt j), fun i j hi hj hmeet => ?_⟩
  rcases hmeet with hij | hij | hij | hij
  · exact .inl hij.symm
  · exact .inr ((hinvol hj).symm.trans (congrArg (bitReverse · N) hij.symm))
  · exact .inr hij.symm
  · exact .inl (hinvol.injOn hj hi hij.symm)

/-- Settles O28: the four lists are evaluated. -/
theorem bitReversalValues : Obligations.BitReversalValues := by
  refine ⟨?_, ?_, ?_, ?_⟩ <;> decide

/-! The reorder pass (R137, R139). -/

section pass

variable {s : State} {N i : Nat}

@[simp] theorem passIndex_reorderAt (k : Nat) : passIndex (reorderAt N s i) k N = passIndex s k N := by
  rw [reorderAt_frame]
  rfl

/-- A turn leaves the words above the index that it exchanges with, the greater one of its pair. -/
theorem find_reorderAt {j : Nat} (hj : passIndex s i N < j) : (reorderAt N s i).re.find j = s.re.find j := by
  rw [reorderAt]
  split
  · next hlt =>
    rw [← mem_re, swapRe, find_mem_put, find_mem_put, if_neg (by omega), if_neg (by omega), mem_re]
  · rfl

/-- The loop leaves the words above all indexes of its turns. -/
theorem find_reorder {j : Nat} (l : List Nat) (hj : ∀ k, passIndex s k N < j) :
    (l.foldl (reorderAt N) s).re.find j = s.re.find j := by
  induction l generalizing s with
  | nil => rfl
  | cons i l ih => rw [List.foldl_cons, ih (by simpa using hj), find_reorderAt (hj i)]

/-- The turn at `i` moves the taps of the pair of `i` alone. -/
theorem reorderedBelow_succ_of_ne {j : Nat} (x : Nat → ScaledComplex) (hji : j ≠ i) (hrev : bitReverse j N ≠ i) :
    reorderedBelow N (i + 1) x j = reorderedBelow N i x j := by
  simp only [reorderedBelow, Nat.lt_succ_iff_lt_or_eq, hji, hrev, or_false]

/-- The turn at the greater index of a pair, or at an index that is its own reversal, moves nothing. -/
theorem reorderedBelow_succ_of_le {c : Params} {j : Nat} (x : Nat → ScaledComplex) (hN : isSize c N = true) (hj : j < N)
    (hle : bitReverse i N ≤ i) : reorderedBelow N (i + 1) x j = reorderedBelow N i x j := by
  by_cases hji : j = i
  · subst hji
    rcases hle.eq_or_lt with heq | hlow
    · simp [reorderedBelow, heq]
    · simp [reorderedBelow, hlow]
  by_cases hrev : bitReverse j N = i
  · have hjn : bitReverse i N = j := hrev ▸ bitReverse_bitReverse hN hj
    simp only [reorderedBelow, show j < i by omega, show j < i + 1 by omega, true_or, if_true]
  · exact reorderedBelow_succ_of_ne x hji hrev

/-- One turn on what loads find, listed or not (R137): the invariant of `Transforming.reorderAt` on a state of any contents. -/
theorem load_reorderAt {x : Nat → ScaledComplex} (hN : isSize s.cfg N = true) (hi : i < N)
    (h : ∀ j < N, load s .re j = (reorderedBelow N i x j).re) :
    ∀ j < N, load (reorderAt N s i) .re j = (reorderedBelow N (i + 1) x j).re := by
  intro j hj
  have hinvol : bitReverse (bitReverse i N) N = i := bitReverse_bitReverse hN hi
  rw [reorderAt, passIndex_of_isSize i hN]
  split
  · next hlt =>
    rw [load_swapRe, h i hi, h _ (bitReverse_lt i hN), h j hj]
    split_ifs with hjn hji
    · simp [reorderedBelow, hjn, hinvol, hlt.not_gt]
    · simp [reorderedBelow, hji, hinvol, hlt.not_gt]
    · have hrev : bitReverse j N ≠ i := fun hrev => hjn (by rw [← hrev, bitReverse_bitReverse hN hj])
      rw [reorderedBelow_succ_of_ne x hji hrev]
  · next hge => rw [h j hj, reorderedBelow_succ_of_le x hN hj (not_lt.mp hge)]

/-- A pass over a legal size finds every word at the bit reversal of its index (R139). -/
theorem load_reorder {j : Nat} (hN : isSize s.cfg N = true) (hj : j < N) :
    load ((List.range N).foldl (reorderAt N) s) .re j = load s .re (bitReverse j N) := by
  have hloop : ∀ n ≤ N, ∀ j < N,
      load ((List.range n).foldl (reorderAt N) s) .re j = (reorderedBelow N n (loadTap s) j).re := by
    intro n hn
    induction n with
    | zero => exact fun j _ => by rw [reorderedBelow_zero]; rfl
    | succ n ih =>
      rw [List.range_succ, List.foldl_append]
      exact load_reorderAt (by rwa [reorder_frame]) hn (ih (Nat.le_of_succ_le hn))
  rw [hloop N le_rfl j hj, reorderedBelow, if_pos (.inl hj)]
  rfl

end pass

/-- Settles O29: the loop permutes the words below `N` in place, its indexes lie below `N` for a legal size and below `AMAX` for
every operand, and it writes `RE` alone. -/
theorem reorderPassPermutesRe : Obligations.ReorderPassPermutesRe := by
  intro s N
  refine ⟨_, rfl, fun hN => ⟨fun i hi => load_reorder hN hi, fun j hj => find_reorder _ fun k => ?_⟩,
    fun j hj => find_reorder _ fun k => (passIndex_lt s k N).trans_le hj, reorder_frame N _ s⟩
  rw [passIndex_of_isSize k hN]
  exact (bitReverse_lt k hN).trans_le hj

end Sys2Proof.Machine
end

section
/-! PROOFS. The operations PAIR0, BFLY and DBFLY of 44_butterfly_engine.md on any state: when they complete and with which words (R153,
R156, R158), which store is the fault when they do not (R157, 60_exceptions.md R219), and that two butterflies on disjoint pairs of
taps commute. -/

namespace Sys2Proof.Machine

/-! Stores that do not fit. -/

theorem store_overflow {s : State} {v : Int} (sp : Space) (j : Nat) (h : ¬ fits s.cfg.sampleW v) :
    store sp j v s = .fault (.overflow sp j v) :=
  if_neg h

theorem storeTap_overflow_re {s : State} {v : ScaledComplex} (j : Nat) (h : ¬ fits s.cfg.sampleW v.re) :
    storeTap j v s = .fault (.overflow .re j v.re) := by
  rw [storeTap, store_overflow .re j h, andThen_fault]

theorem storeTap_overflow_im {s : State} {v : ScaledComplex} (j : Nat) (hre : fits s.cfg.sampleW v.re)
    (him : ¬ fits s.cfg.sampleW v.im) : storeTap j v s = .fault (.overflow .im j v.im) := by
  rw [storeTap, store_of_fits .re j hre, andThen_next, store_overflow .im j (by rwa [put_cfg])]

/-! The stage-0 combine (R153). -/

theorem execPair0_overflow_sum {s : State} {i : Nat} (hi : i + 1 < s.cfg.amax)
    (hsum : ¬ fits s.cfg.sampleW (load s .re i + load s .re (i + 1))) :
    execPair0 i s = .fault (.overflow .re i (load s .re i + load s .re (i + 1))) := by
  rw [execPair0, if_pos hi, store_overflow .re i hsum, andThen_fault]

theorem execPair0_overflow_difference {s : State} {i : Nat} (hi : i + 1 < s.cfg.amax)
    (hsum : fits s.cfg.sampleW (load s .re i + load s .re (i + 1)))
    (hdiff : ¬ fits s.cfg.sampleW (load s .re i - load s .re (i + 1))) :
    execPair0 i s = .fault (.overflow .re (i + 1) (load s .re i - load s .re (i + 1))) := by
  rw [execPair0, if_pos hi, store_of_fits .re i hsum, andThen_next, store_overflow .re (i + 1) (by rwa [put_cfg])]

/-- Settles O30: the first store leaves the second word, so that each of the two results is stored or is the fault. -/
theorem pairIsCombined : Obligations.PairIsCombined := by
  intro s i hi x0 x1
  refine ⟨fun hsum hdiff => ⟨_, execPair0_of_fits hi hsum hdiff, ?_, find_write_self _ _ _, fun j hj hj' => ?_, rfl⟩,
    execPair0_overflow_sum hi, execPair0_overflow_difference hi⟩
  · exact (find_write_ne _ _ (by omega)).trans (find_write_self _ _ _)
  · exact (find_write_ne _ _ hj').trans (find_write_ne _ _ hj)

/-! One butterfly (R156). -/

section butterfly

variable {s t : State} {a b z p m : Nat} {w : ScaledComplex}

theorem butterflyTaps_lower (hab : a ≠ b) (x : Nat → ScaledComplex) :
    butterflyTaps a b m w x a = cadd (x a) (crsh (cmul (x b) w) m) := by
  rw [butterflyTaps, if_neg hab, if_pos rfl]

theorem butterflyTaps_upper (x : Nat → ScaledComplex) :
    butterflyTaps a b m w x b = csub (x a) (crsh (cmul (x b) w) m) := if_pos rfl

theorem butterflyTaps_other {j : Nat} (ha : j ≠ a) (hb : j ≠ b) (x : Nat → ScaledComplex) :
    butterflyTaps a b m w x j = x j := by
  rw [butterflyTaps, if_neg hb, if_neg ha]

/-- Inside the contract a butterfly is its two stores. -/
theorem butterfly_of_lookup (ha : a < s.cfg.amax) (hb : b < s.cfg.amax) (hw : lookup s z (2 * p) = some w) :
    butterfly a b z p m s = andThen (storeTap a (cadd (loadTap s a) (crsh (cmul (loadTap s b) w) m)) (s.setOpnd (latch s a b m w)))
      (storeTap b (csub (loadTap s a) (crsh (cmul (loadTap s b) w) m))) := by
  rw [butterfly, if_pos ⟨ha, hb⟩, hw]
  rfl

/-- Inside the contract a butterfly completes exactly when the two new taps fit (R157). -/
theorem butterfly_completes_iff (hab : a ≠ b) (ha : a < s.cfg.amax) (hb : b < s.cfg.amax) (hw : lookup s z (2 * p) = some w) :
    (∃ t, butterfly a b z p m s = .next t) ↔
      FitsTap s.cfg (butterflyTaps a b m w (loadTap s) a) ∧ FitsTap s.cfg (butterflyTaps a b m w (loadTap s) b) := by
  rw [butterflyTaps_lower hab, butterflyTaps_upper]
  constructor
  · rintro ⟨t, ht⟩
    obtain ⟨-, -, w', hw', hur, hui, hvr, hvi, -⟩ := butterfly_next ht
    obtain rfl : w' = w := Option.some.inj (hw'.symm.trans hw)
    exact ⟨⟨hur, hui⟩, hvr, hvi⟩
  · exact fun ⟨hsum, hdiff⟩ => ⟨_, butterfly_of_fits ha hb hw hsum hdiff⟩

/-- The listed words after a butterfly: its two taps, and every other word as it was. -/
theorem find_butterfly (h : butterfly a b z p m s = .next t) (hw : lookup s z (2 * p) = some w) (j : Nat) :
    t.re.find j = (if j = a ∨ j = b then some (butterflyTaps a b m w (loadTap s) j).re else s.re.find j) ∧
    t.im.find j = (if j = a ∨ j = b then some (butterflyTaps a b m w (loadTap s) j).im else s.im.find j) := by
  obtain ⟨-, -, w', hw', -, -, -, -, rfl⟩ := butterfly_next h
  obtain rfl : w' = w := Option.some.inj (hw'.symm.trans hw)
  rw [← mem_re, ← mem_im]
  simp only [find_mem_put, butterflyTaps, latch]
  constructor <;> split_ifs <;> simp_all

theorem find_butterfly_other (h : butterfly a b z p m s = .next t) {j : Nat} (ha : j ≠ a) (hb : j ≠ b) :
    t.re.find j = s.re.find j ∧ t.im.find j = s.im.find j := by
  obtain ⟨-, -, w, hw, -⟩ := butterfly_next h
  have hj : ¬ (j = a ∨ j = b) := not_or.mpr ⟨ha, hb⟩
  have hfind := find_butterfly h hw j
  rwa [if_neg hj, if_neg hj] at hfind

/-- The taps after a butterfly, as loads find them. -/
theorem loadTap_butterfly (h : butterfly a b z p m s = .next t) (hw : lookup s z (2 * p) = some w) (j : Nat) :
    loadTap t j = butterflyTaps a b m w (loadTap s) j := by
  obtain ⟨-, -, w', hw', -, -, -, -, rfl⟩ := butterfly_next h
  obtain rfl : w' = w := Option.some.inj (hw'.symm.trans hw)
  have hlatch : ∀ sp i, load (s.setOpnd (latch s a b m w')) sp i = load s sp i := fun sp i => load_congr i rfl rfl rfl
  simp only [loadTap, load_put, hlatch]
  simp only [butterflyTaps, latch]
  split_ifs <;> simp_all [loadTap]

/-- A butterfly leaves every lookup as it was. -/
theorem lookup_butterfly (h : butterfly a b z p m s = .next t) (z' P : Nat) : lookup t z' P = lookup s z' P := by
  rw [butterfly_frame h]
  exact lookup_congr z' P rfl rfl rfl rfl rfl

theorem butterfly_cfg (h : butterfly a b z p m s = .next t) : t.cfg = s.cfg := by
  rw [butterfly_frame h]

end butterfly

/-- Settles O31: the pair that the lookup finds stands at the two table indexes of the rule, and the rescaling is the division. -/
theorem butterflyCombinesItsTaps : Obligations.ButterflyCombinesItsTaps := by
  intro s a k2 z p M hk hb hvalid hbase hpow hp hpA hz b c q tre tim hur hui hvr hvi
  have hab : a ≠ b := by omega
  have hw : lookup s z (2 * p) = some ⟨c, q⟩ := if_pos ⟨hvalid, hbase, hpow, by omega, hpA, hz⟩
  obtain ⟨t, ht⟩ := (butterfly_completes_iff (m := M) hab (by omega) hb hw).mpr (by
    rw [butterflyTaps_lower hab, butterflyTaps_upper]
    exact ⟨⟨hur, hui⟩, hvr, hvi⟩)
  have hlow := find_butterfly ht hw a
  have hupp := find_butterfly ht hw b
  rw [if_pos (.inl rfl), if_pos (.inl rfl), butterflyTaps_lower hab] at hlow
  rw [if_pos (.inr rfl), if_pos (.inr rfl), butterflyTaps_upper] at hupp
  exact ⟨t, ht, hlow.1, hlow.2, hupp.1, hupp.2, fun j => find_butterfly_other ht, butterfly_frame ht⟩

/-- Settles O32: a butterfly is the stores of its two taps, and a tap is stored real part first. -/
theorem butterflyOverflowIsAFault : Obligations.ButterflyOverflowIsAFault := by
  intro s a k2 z p M hk hb hdef w hw b t u v
  obtain ⟨r, hr, hstores⟩ : ∃ r : State, r.cfg = s.cfg ∧
      exec (.bfly a b z p M) s = andThen (storeTap a u r) (storeTap b v) :=
    ⟨s.setOpnd (latch s a b M w), rfl, butterfly_of_lookup (by omega) hb hw⟩
  rw [← hr, hstores]
  refine ⟨fun hre => ?_, fun hre him => ?_, fun hre him hre' => ?_, fun hre him hre' him' => ?_⟩
  · rw [storeTap_overflow_re a hre, andThen_fault]
  · rw [storeTap_overflow_im a hre him, andThen_fault]
  · rw [storeTap_of_fits a ⟨hre, him⟩, andThen_next, storeTap_overflow_re b (by rwa [put_cfg, put_cfg])]
  · rw [storeTap_of_fits a ⟨hre, him⟩, andThen_next, storeTap_overflow_im b (by rwa [put_cfg, put_cfg])
      (by rwa [put_cfg, put_cfg])]

/-! Two butterflies on disjoint pairs of taps (R158). -/

section dual

variable {s s1 t t1 : State} {a b a' b' z z' p m j : Nat} {w w' : ScaledComplex}

/-- No tap of the one pair is a tap of the other. -/
abbrev DisjointPairs (a b a' b' : Nat) : Prop := a ≠ a' ∧ a ≠ b' ∧ b ≠ a' ∧ b ≠ b'

theorem disjointPairs_dual {k2 : Nat} (hk : 2 ≤ k2) (i : Nat) : DisjointPairs i (i + k2) (i + 1) (i + 1 + k2) := by omega

/-- A butterfly depends on its own two taps. -/
theorem butterflyTaps_congr {x y : Nat → ScaledComplex} (ha : x a = y a) (hb : x b = y b) (hj : j = a ∨ j = b) :
    butterflyTaps a b m w x j = butterflyTaps a b m w y j := by
  simp only [butterflyTaps, ha, hb]
  rcases hj with rfl | rfl <;> simp

/-- The taps of the second pair are those of its butterfly on the taps before the first. -/
theorem butterflyTaps_second (hd : DisjointPairs a b a' b') (x : Nat → ScaledComplex) (hj : j = a' ∨ j = b') :
    butterflyTaps a' b' m w' (butterflyTaps a b m w x) j = butterflyTaps a' b' m w' x j :=
  butterflyTaps_congr (butterflyTaps_other hd.1.symm hd.2.2.1.symm x) (butterflyTaps_other hd.2.1.symm hd.2.2.2.symm x) hj

/-- The taps of the first pair are left by the second butterfly. -/
theorem butterflyTaps_first (hd : DisjointPairs a b a' b') (x : Nat → ScaledComplex) (hj : j = a ∨ j = b) :
    butterflyTaps a' b' m w' x j = x j := by
  rcases hj with rfl | rfl
  · exact butterflyTaps_other hd.1 hd.2.1 x
  · exact butterflyTaps_other hd.2.2.1 hd.2.2.2 x

theorem DisjointPairs.symm (hd : DisjointPairs a b a' b') : DisjointPairs a' b' a b :=
  ⟨hd.1.symm, hd.2.2.1.symm, hd.2.1.symm, hd.2.2.2.symm⟩

theorem butterflyTaps_comm (hd : DisjointPairs a b a' b') (x : Nat → ScaledComplex) :
    butterflyTaps a' b' m w' (butterflyTaps a b m w x) = butterflyTaps a b m w (butterflyTaps a' b' m w' x) := by
  funext j
  by_cases h : j = a ∨ j = b
  · rw [butterflyTaps_first hd _ h, butterflyTaps_second hd.symm x h]
  by_cases h' : j = a' ∨ j = b'
  · rw [butterflyTaps_second hd x h', butterflyTaps_first hd.symm _ h']
  · obtain ⟨ha, hb⟩ := not_or.mp h
    obtain ⟨ha', hb'⟩ := not_or.mp h'
    simp only [butterflyTaps_other ha hb, butterflyTaps_other ha' hb']

/-- After one butterfly, another on a disjoint pair completes exactly when it would have completed before. -/
theorem butterfly_second_completes_iff (hd : DisjointPairs a b a' b') (hab' : a' ≠ b') (h : butterfly a b z p m s = .next s1)
    (ha' : a' < s.cfg.amax) (hb' : b' < s.cfg.amax) (hw' : lookup s z' (2 * p) = some w') :
    (∃ t, butterfly a' b' z' p m s1 = .next t) ↔ ∃ t, butterfly a' b' z' p m s = .next t := by
  obtain ⟨-, -, w, hw, -⟩ := butterfly_next h
  have hcfg := butterfly_cfg h
  have htaps : loadTap s1 = butterflyTaps a b m w (loadTap s) := funext (loadTap_butterfly h hw)
  rw [butterfly_completes_iff hab' ha' hb' hw', butterfly_completes_iff hab' (hcfg ▸ ha') (hcfg ▸ hb')
    ((lookup_butterfly h _ _).trans hw'), htaps, hcfg, butterflyTaps_second hd _ (.inl rfl), butterflyTaps_second hd _ (.inr rfl)]

/-- Two butterflies on disjoint pairs can be made in either order. -/
theorem butterfly_comm (hd : DisjointPairs a b a' b') (hab : a ≠ b) (hab' : a' ≠ b') (h : butterfly a b z p m s = .next s1)
    (h' : butterfly a' b' z' p m s1 = .next t) :
    ∃ u v, butterfly a' b' z' p m s = .next u ∧ butterfly a b z p m u = .next v ∧ ∀ j, loadTap v j = loadTap t j := by
  obtain ⟨ha, hb, w, hw, -⟩ := butterfly_next h
  obtain ⟨ha', hb', w', hw', -⟩ := butterfly_next h'
  have hw1 := hw'
  rw [lookup_butterfly h] at hw'
  rw [butterfly_cfg h] at ha' hb'
  obtain ⟨u, hu⟩ := (butterfly_second_completes_iff hd hab' h ha' hb' hw').mp ⟨t, h'⟩
  obtain ⟨v, hv⟩ := (butterfly_second_completes_iff hd.symm hab hu ha hb hw).mpr ⟨s1, h⟩
  refine ⟨u, v, hu, hv, fun j => ?_⟩
  rw [loadTap_butterfly hv ((lookup_butterfly hu _ _).trans hw), loadTap_butterfly h' hw1, funext (loadTap_butterfly hu hw'),
    funext (loadTap_butterfly h hw), butterflyTaps_comm hd]

end dual

/-- Settles O33: the second butterfly finds its taps and its lookup as they were before the first. -/
theorem dualButterflyCombinesTwoPairs : Obligations.DualButterflyCombinesTwoPairs := by
  intro s i k2 z p M hk hi hvalid hbase hpow hp hpA hz z1 z2 w0 w1 hw0 hw1 t0 t1 u0 v0 u1 v1 hfit
  have hd := disjointPairs_dual hk i
  have hab : i ≠ i + k2 := by omega
  have hab' : i + 1 ≠ i + 1 + k2 := by omega
  obtain ⟨s1, h1⟩ := (butterfly_completes_iff (m := M) hab (by omega) (by omega) hw0).mpr (by
    rw [butterflyTaps_lower hab, butterflyTaps_upper]
    exact ⟨hfit u0 (by simp), hfit v0 (by simp)⟩)
  obtain ⟨s2, h2⟩ := (butterfly_second_completes_iff hd hab' h1 (by omega) hi hw1).mpr
    ((butterfly_completes_iff hab' (by omega) hi hw1).mpr (by
      rw [butterflyTaps_lower hab', butterflyTaps_upper]
      exact ⟨hfit u1 (by simp), hfit v1 (by simp)⟩))
  have htaps : ∀ j, loadTap s2 j =
      butterflyTaps (i + 1) (i + 1 + k2) M w1 (butterflyTaps i (i + k2) M w0 (loadTap s)) j := fun j => by
    rw [loadTap_butterfly h2 ((lookup_butterfly h1 _ _).trans hw1), funext (loadTap_butterfly h1 hw0)]
  refine ⟨{ s2 with result := .index z2 }, ?_, (htaps i).trans ?_, (htaps (i + k2)).trans ?_, (htaps (i + 1)).trans ?_,
    (htaps (i + 1 + k2)).trans ?_, fun j hj hj' hjk hjk' => ?_, ?_⟩
  · show execDbfly i k2 z p M s = _
    rw [execDbfly, h1, andThen_next, show nextZ z p = z1 from rfl, h2, andThen_next, deliver_eq]
    rfl
  · rw [butterflyTaps_first hd _ (.inl rfl), butterflyTaps_lower hab]
  · rw [butterflyTaps_first hd _ (.inr rfl), butterflyTaps_upper]
  · rw [butterflyTaps_second hd _ (.inl rfl), butterflyTaps_lower hab']
  · rw [butterflyTaps_second hd _ (.inr rfl), butterflyTaps_upper]
  · obtain ⟨hre, him⟩ := find_butterfly_other h1 hj hjk
    obtain ⟨hre', him'⟩ := find_butterfly_other h2 hj' hjk'
    exact ⟨hre'.trans hre, him'.trans him⟩
  · rw [butterfly_frame h2, butterfly_frame h1]

/-- Settles O34: the two pairs of taps are disjoint, and butterflies on disjoint pairs commute. -/
theorem dualButterflyLanesAreIndependent : Obligations.DualButterflyLanesAreIndependent := by
  intro s t i k2 z p M hk ht z1
  obtain ⟨s1, s2, h1, h2, rfl⟩ := execDbfly_next ht
  obtain ⟨u, v, hu, hv, htaps⟩ := butterfly_comm (disjointPairs_dual hk i) (by omega) (by omega) h1 h2
  refine ⟨u, v, hu, hv, fun j => ?_⟩
  have hj : loadTap v j = loadTap s2 j := htaps j
  exact ⟨congrArg ScaledComplex.re hj, congrArg ScaledComplex.im hj⟩

end Sys2Proof.Machine
end

section
/-! PROOFS. The whole transform, step by step (44_butterfly_engine.md R162, R164, R167): with values that fit it completes, and a value of
a stage that does not fit is the fault of some step (R157, 60_exceptions.md R219); the transforms of an impulse and of a constant
(95_test_vectors.md S2, S3). -/

namespace Sys2Proof.Machine

/-! Steps and runs of a transform whose values fit. -/

namespace XformAt

variable {N k m : Nat} {x : Nat → ScaledComplex} {s t : State}

/-- A step of a transform is its next Engine operation. -/
theorem step_eq (h : XformAt N x k s) (hk : k < xformOps N) : step s = Machine.engineOp (Machine.atEdge s []) := by
  rw [step_alone h.alone, if_pos (h.busy hk)]

theorem step (h : XformAt N x k s) (hk : k < xformOps N) (hfit : StagesFit s.cfg N x) :
    ∃ t, step s = .next t ∧ XformAt N x (k + 1) t := by
  rw [h.step_eq hk]
  exact (h.atEdge hk none).engineOp hk hfit

theorem run (h : XformAt N x k s) (hm : k + m ≤ xformOps N) (hfit : StagesFit s.cfg N x) :
    ∃ t, run m s = .next t ∧ XformAt N x (k + m) t := by
  induction m generalizing k s with
  | zero => exact ⟨s, rfl, h⟩
  | succ m ih =>
    obtain ⟨t, ht, hnext⟩ := h.step (by omega) hfit
    obtain ⟨u, hu, hend⟩ := ih hnext (by omega) (configurationNeverChanges s t ht ▸ hfit)
    refine ⟨u, ?_, by rwa [Nat.add_right_comm] at hend⟩
    rw [Machine.run, ht, andThen_next, hu]

end XformAt

/-- Settles O52: each of the steps of the accepted command makes its part of a stage, and all of them make all stages. -/
theorem xformComputesItsStages : Obligations.XformComputesItsStages := by
  intro N s x hinv hsize hready htaps hfit
  obtain ⟨t, hrun, hend⟩ := (xformAt_acceptXform hinv hsize hready htaps).run (m := xformOps N.toNat) (by omega) hfit
  exact ⟨acceptXform N.toNat s, t, execXform_of_readyFor hsize hready, hrun, hend.completed (by omega)⟩

/-- A transform whose taps after each stage are known in closed form, and fit. -/
theorem xform_of_stages {N : BitVec 16} {s : State} {x : Nat → ScaledComplex} {y : Nat → Nat → ScaledComplex} (hinv : Inv s)
    (hsize : isSize s.cfg N.toNat = true) (hready : ReadyFor s N.toNat) (htaps : HoldsTaps s N.toNat x)
    (hy : ∀ st < stages N.toNat, ∀ j < N.toNat, tapsAfter N.toNat x st j = y st j)
    (hfit : ∀ st < stages N.toNat, ∀ j, FitsTap s.cfg (y st j)) :
    ∃ s1 t, exec (.xform N) s = .next s1 ∧ run (xformOps N.toNat) s1 = .next t ∧ t.status.busy = false ∧
      t.status.done = true ∧ HoldsTaps t N.toNat (y (stages N.toNat - 1)) := by
  obtain ⟨s1, t, hexec, hrun, hbusy, hdone, hend⟩ := xformComputesItsStages N s x hinv hsize hready htaps fun st hst j hj =>
    (hy st hst j hj).symm ▸ hfit st hst j
  have hlast : stages N.toNat - 1 < stages N.toNat := Nat.sub_lt (one_le_stages hsize) Nat.one_pos
  exact ⟨s1, t, hexec, hrun, hbusy, hdone, fun j hj => hy _ hlast j hj ▸ hend j hj⟩

/-! Operations of a transform that complete, whatever the values. -/

namespace Transforming

variable {s u : State} {N i a b z p m k2 d g : Nat} {x : Nat → ScaledComplex}

theorem of_execPair0 (h : Transforming s N x) (hi : i + 1 < N) (hu : execPair0 i s = .next u) :
    Transforming u N (pairTaps i x) ∧ u.seq = s.seq := by
  obtain ⟨-, hsum, hdiff, -⟩ := execPair0_next hu
  rw [h.load_re (Nat.lt_of_succ_lt hi), h.load_re hi] at hsum hdiff
  obtain ⟨v, hv, hT, hseq, -⟩ := h.execPair0_eq hi hsum hdiff
  obtain rfl : v = u := by simpa [hu] using hv.symm
  exact ⟨hT, hseq⟩

theorem of_butterfly (h : Transforming s N x) (ha : a < N) (hb : b < N) (hab : a ≠ b)
    (hu : butterfly a b z p m s = .next u) :
    Transforming u N (butterflyTaps a b m (stepTwiddle N z p) x) ∧ u.seq = s.seq := by
  obtain ⟨-, -, w, hw, -⟩ := butterfly_next hu
  obtain ⟨⟨-, -, hpow, h4, hpN, hz⟩, -⟩ := lookup_eq_some hw
  have hw := h.lookup_eq hpow h4 (h.base ▸ hpN) hz
  obtain ⟨hfa, hfb⟩ := (butterfly_completes_iff hab (h.lt_amax ha) (h.lt_amax hb) hw).mp ⟨u, hu⟩
  rw [butterflyTaps_congr (h.loadTap_eq ha) (h.loadTap_eq hb) (.inl rfl)] at hfa
  rw [butterflyTaps_congr (h.loadTap_eq ha) (h.loadTap_eq hb) (.inr rfl)] at hfb
  obtain ⟨v, hv, hT, hseq, -⟩ := h.butterfly_eq ha hb hab hw hfa hfb
  obtain rfl : v = u := by simpa [hu] using hv.symm
  exact ⟨hT, hseq⟩

theorem of_execDbfly (h : Transforming s N x) (hi : i + 1 + k2 < N) (hk : 2 ≤ k2) (hu : execDbfly i k2 z p m s = .next u) :
    Transforming u N (dualTaps N i k2 z p m x) ∧ u.seq = s.seq ∧ u.result = .index (nextZ (nextZ z p) p) := by
  obtain ⟨s1, s2, h1, h2, rfl⟩ := execDbfly_next hu
  obtain ⟨hT, hseq⟩ := h.of_butterfly (by omega) (by omega) (by omega) h1
  obtain ⟨hT', hseq'⟩ := hT.of_butterfly (by omega) hi (by omega) h2
  exact ⟨hT'.of_frame rfl rfl rfl rfl rfl rfl hT'.taps, hseq'.trans hseq, rfl⟩

end Transforming

namespace XformAt

variable {N k m : Nat} {x : Nat → ScaledComplex} {s t : State}

/-- An Engine operation that completes has made its part of the transform. -/
theorem of_engineOp (h : XformAt N x k s) (hk : k < xformOps N) (ht : Machine.engineOp s = .next t) : XformAt N x (k + 1) t := by
  rcases engineOp_next ht with ⟨hidle, -⟩ | ⟨i, u, hi, hu, rfl⟩
  · cases h with
    | permute hT hph => simp [hph] at hidle
    | stage0 hT hph => simp [hph] at hidle
    | general hT hq => simp [hq, generalSeq] at hidle
    | complete => exact absurd hk (lt_irrefl _)
  · cases h with
    | permute hT hph hn hm =>
      obtain ⟨v, hv, hX⟩ := hT.engineOp_permute hph hn hm
      rw [ht] at hv
      injection hv with hv
      exact hv ▸ hX
    | @stage0 _ d hT hph hn hm heq hd =>
      obtain rfl : Instr.pair0 (2 * d) = i := by simpa [nextOperation, hph, heq] using hi
      obtain ⟨hT', hseq⟩ := hT.of_execPair0 (by omega) hu
      rw [pairTaps_combinedBelow N (by omega) x] at hT'
      rw [hph, advance]
      exact hT'.xformAt_afterPair0 (hseq ▸ hph) (hseq ▸ hn) (hseq ▸ hm) (hseq ▸ heq) hd
    | @general _ g d hT hq hg hd =>
      obtain rfl : Instr.dbfly (pairIndex g d) (2 * 2 ^ g) (2 * (d % 2 ^ g)) (2 ^ (g + 1)) (stages N) = i := by
        simpa [nextOperation, hq, generalSeq] using hi
      have hgroup := Nat.two_pow_pos g
      have hlast := pairIndex_lt hT.size hg hd
      obtain ⟨hT', hseq, hres⟩ := hT.of_execDbfly hlast (by omega) hu
      rw [dualTaps_rotatedBelow hT.size] at hT'
      rw [show s.seq.phase = .general by rw [hq]; rfl, advance]
      exact hT'.xformAt_afterDbfly (hseq.trans hq) hres hg hd
    | complete => exact absurd hk (lt_irrefl _)

theorem of_step (h : XformAt N x k s) (hk : k < xformOps N) (ht : Machine.step s = .next t) : XformAt N x (k + 1) t :=
  (h.atEdge hk none).of_engineOp hk (h.step_eq hk ▸ ht)

/-- A number of steps of a transform are made, or one of them is an overflow. -/
theorem run_cases (h : XformAt N x k s) (hinv : Inv s) (hm : k + m ≤ xformOps N) :
    (∃ t, Machine.run m s = .next t ∧ XformAt N x (k + m) t ∧ Inv t ∧ t.cfg = s.cfg) ∨
    ∃ sp i v, Machine.run m s = .fault (.overflow sp i v) := by
  induction m generalizing k s with
  | zero => exact .inl ⟨s, rfl, h, hinv, rfl⟩
  | succ m ih =>
    rw [Machine.run]
    rcases engineStaysInsideItsContracts s hinv with ⟨t, ht⟩ | ⟨sp, i, v, hfault, -⟩
    · rw [ht, andThen_next, ← configurationNeverChanges s t ht, ← Nat.succ_add_eq_add_succ]
      exact ih (h.of_step (by omega) ht) (stepKeepsTheInvariant s t hinv ht) (by omega)
    · exact .inr ⟨sp, i, v, by rw [hfault, andThen_fault]⟩

/-- Between two stages the taps are those after the first of them. -/
theorem taps_of_stage {st : Nat} (h : XformAt N x k s) (hk : k = 1 + N / 2 + st * (N / 4)) (hst : st < stages N) :
    HoldsTaps s N (tapsAfter N x st) := by
  cases h with
  | permute => omega
  | stage0 hT hph hn hm hi hd => omega
  | @general _ g d hT hq hg hd =>
    have hcount : g * (N / 4) + d = st * (N / 4) := Nat.add_left_cancel hk
    obtain rfl : d = 0 := by simpa [Nat.mod_eq_of_lt hd] using congrArg (· % (N / 4)) hcount
    obtain rfl : g = st := Nat.eq_of_mul_eq_mul_right (Nat.zero_lt_of_lt hd) hcount
    simpa only [pairIndex_zero, rotatedBelow_zero] using hT.taps
  | complete hT =>
    obtain rfl : st = stages N - 1 := by
      by_contra hne
      have h4 : 2 ^ 2 ≤ N := two_pow_le_of_le_stages hT.size (by omega)
      have hlt : st * (N / 4) < (stages N - 1) * (N / 4) := Nat.mul_lt_mul_of_pos_right (by omega) (by omega)
      rw [xformOps] at hk
      omega
    exact hT.taps

end XformAt

/-- The taps in the memories of a block fit their width (10_state.md R23). -/
theorem fitsTap_of_holdsTaps {s : State} {N j : Nat} {x : Nat → ScaledComplex} (hinv : Inv s) (hx : HoldsTaps s N x)
    (hj : j < N) : FitsTap s.cfg (x j) := by
  obtain ⟨hdata, -⟩ := inv_iff.mp hinv
  rw [← loadTap_of_holdsTaps hx hj]
  exact ⟨hdata.load_fits .re j, hdata.load_fits .im j⟩

/-- Settles O53: a run that reached the end of the stage would hold the value in a memory, whose words fit by the invariant. -/
theorem xformOverflowIsAFault : Obligations.XformOverflowIsAFault := by
  intro N s x st j hinv hsize hready htaps hst hj hover
  have hexec := execXform_of_readyFor hsize hready
  have hX := xformAt_acceptXform hinv hsize hready htaps
  obtain ⟨hidle, -, hvalid, hbase⟩ := hready
  have hstage : st * (N.toNat / 4) ≤ (stages N.toNat - 1) * (N.toNat / 4) := Nat.mul_le_mul_right _ (by omega)
  obtain ⟨rest, hrest⟩ : ∃ rest, xformOps N.toNat = 1 + N.toNat / 2 + st * (N.toNat / 4) + rest :=
    Nat.exists_eq_add_of_le (by rw [xformOps]; omega)
  rcases hX.run_cases (m := 1 + N.toNat / 2 + st * (N.toNat / 4)) ((HostEffect.xform hidle hsize hvalid hbase).inv hinv)
      (by omega) with ⟨t, -, ht, htinv, hcfg⟩ | ⟨sp, i, v, hfault⟩
  · have hcfg : t.cfg = s.cfg := hcfg
    exact absurd (hcfg ▸ fitsTap_of_holdsTaps htinv (ht.taps_of_stage (zero_add _) hst) hj) hover
  · refine ⟨acceptXform N.toNat s, sp, i, v, hexec, ?_⟩
    rw [hrest, run_add, hfault, andThen_fault]

end Sys2Proof.Machine
end

section
/-! PROOFS. Transforms whose result is known in closed form: two points (44_butterfly_engine.md R164), an impulse and a constant
(95_test_vectors.md S2, S3). -/

namespace Sys2Proof.Machine

/-! The 2-point transform (R164). -/

/-- Two indexes of one bit are their own reversals, so that the pass exchanges nothing. -/
theorem execBrpass_two {s : State} (hsize : isSize s.cfg 2 = true) : execBrpass 2 s = .next s := by
  have hrev : bitReverse 0 2 = 0 ∧ bitReverse 1 2 = 1 := by decide
  simp [execBrpass, List.range_succ, reorderAt, passIndex_of_isSize, hsize, hrev]

/-- The one combine of a transform of size 2 is its last operation. -/
theorem step_stage0_two {s : State} {x0 x1 : Int} (halone : Alone s) (hbusy : s.status.busy = true)
    (hseq : s.seq.phase = .stage0 ∧ s.seq.i = 0 ∧ s.seq.n = 2 ∧ s.seq.m = 1) (hmax : 0 + 1 < s.cfg.amax)
    (h0 : s.re.find 0 = some x0) (h1 : s.re.find 1 = some x1) (hsum : fits s.cfg.sampleW (x0 + x1))
    (hdiff : fits s.cfg.sampleW (x0 - x1)) :
    ∃ t, step s = .next t ∧ t.status.busy = false ∧ t.status.done = true ∧ t.re.find 0 = some (x0 + x1) ∧
      t.re.find 1 = some (x0 - x1) ∧ t.im = s.im := by
  obtain ⟨hph, hi, hn, hm⟩ := hseq
  have hload0 : load (atEdge s []) .re 0 = x0 := load_of_find h0
  have hload1 : load (atEdge s []) .re (0 + 1) = x1 := load_of_find h1
  have hpair := execPair0_of_fits (s := atEdge s []) hmax (by rwa [hload0, hload1]) (by rwa [hload0, hload1])
  rw [hload0, hload1] at hpair
  have hstep := step_of_exec (i := .pair0 0) halone hbusy (by rw [nextOperation, hph, hi]) hpair
  obtain ⟨u, hu⟩ : ∃ u, u = put (put (atEdge s []) .re 0 (x0 + x1)) .re (0 + 1) (x0 - x1) := ⟨_, rfl⟩
  have huseq : u.seq = s.seq := by rw [hu, put_seq, put_seq]; rfl
  have hlast : afterPair0 u = completeXform (u.setSeq { u.seq with i := 2 }) := by simp [afterPair0, huseq, hi, hn, hm]
  rw [← hu, hph, advance, hlast] at hstep
  refine ⟨_, hstep, rfl, rfl, ?_, ?_, ?_⟩
  · show (u.mem .re).find 0 = _
    rw [hu, find_mem_put, if_neg (by decide), find_mem_put, if_pos ⟨rfl, rfl⟩]
  · show (u.mem .re).find 1 = _
    rw [hu, find_mem_put, if_pos ⟨rfl, rfl⟩]
  · show u.im = _
    rw [hu, put_re_im, put_re_im]
    rfl

/-- Settles O54: a transform of size 2 is a reorder pass that exchanges nothing and one combine, which touches `RE` alone. -/
theorem twoPointTransformIsExact : Obligations.TwoPointTransformIsExact := by
  intro s x0 x1 hinv hready h0 h1 hsum hdiff
  have hsize : isSize s.cfg 2 = true := isSize_iff.mpr ⟨1, le_rfl, hinv.1.1, rfl⟩
  have halone : Alone (acceptXform 2 s) := hready.2.1
  have hpass : step (acceptXform 2 s) = .next (afterBrpass (atEdge (acceptXform 2 s) [])) :=
    step_of_exec (i := .brpass 2) halone rfl rfl (execBrpass_two hsize)
  obtain ⟨t, hcombine, hend⟩ := step_stage0_two (s := afterBrpass (atEdge (acceptXform 2 s) [])) ⟨rfl, halone.2⟩ rfl
    ⟨rfl, rfl, rfl, rfl⟩ (le_amax_of_isSize hsize) h0 h1 hsum hdiff
  refine ⟨acceptXform 2 s, t, execXform_of_readyFor (size := 2) hsize hready, ?_, hend⟩
  rw [run, hpass, andThen_next, run, hcombine, andThen_next, run]

/-! One stage (R160). -/

/-- Every tap of a stage is one of the two of a pair inside the transform. -/
theorem stageOn_pair {c : Params} {N st j : Nat} (hN : isSize c N = true) (hst : st < stages N) (v : Nat → ScaledComplex)
    (hj : j < N) :
    ∃ a, a % (2 * 2 ^ st) < 2 ^ st ∧ a + 2 ^ st < N ∧
      (j = a ∧ stageOn N st v j = cadd (v a) (rotated N (v (a + 2 ^ st)) (stageTwiddle N st a)) ∨
       j = a + 2 ^ st ∧ stageOn N st v j = csub (v a) (rotated N (v (a + 2 ^ st)) (stageTwiddle N st a))) := by
  have hlow := lowerTap_mod_lt st j
  obtain ⟨q, hq⟩ : 2 * 2 ^ st ∣ N := by
    rw [← pow_succ', ← two_pow_log2_of_isSize hN]
    exact pow_dvd_pow 2 hst
  refine ⟨lowerTap st j, hlow, ?_, ?_⟩
  · have hle := (lowerTap_le st j).trans_lt hj
    have hdiv : lowerTap st j / (2 * 2 ^ st) < q := Nat.div_lt_of_lt_mul (hq ▸ hle)
    have hgroup : 2 * 2 ^ st * (lowerTap st j / (2 * 2 ^ st) + 1) ≤ N := hq ▸ Nat.mul_le_mul_left _ hdiv
    have hsplit := Nat.mod_add_div (lowerTap st j) (2 * 2 ^ st)
    rw [mul_add] at hgroup
    omega
  · generalize ha : lowerTap st j = a at hlow
    rcases eq_of_lowerTap_eq ha with rfl | rfl
    · exact .inl ⟨rfl, stageOn_lower N v hlow⟩
    · exact .inr ⟨rfl, stageOn_upper N v hlow⟩

/-- A tap that is 0 is turned into 0. -/
theorem rotated_zero (N : Nat) (w : ScaledComplex) : rotated N ⟨0, 0⟩ w = ⟨0, 0⟩ := by
  simp [rotated]

/-- The first turn of a stage is the turn by 1 (41_twiddle_rom.md R116). -/
theorem rotated_stageTwiddle_zero {c : Params} {N st a : Nat} (hc : c.Legal) (hN : isSize c N = true) (hst : 1 ≤ st)
    (hlast : st < stages N) (ha : a % 2 ^ st = 0) (o : ScaledComplex) : rotated N o (stageTwiddle N st a) = o := by
  obtain ⟨m, hm, hmax, rfl⟩ := isSize_iff.mp hN
  rw [stages, Nat.log2_two_pow] at hlast
  have h15 : m ≤ 15 := hmax.trans hc.2.1
  obtain ⟨-, -, -, -, hquarter, -⟩ := tableEntriesAreSymmetric m (by omega) h15
  have htwiddle : stageTwiddle (2 ^ m) st a = ⟨((2 ^ m : Nat) : Int), 0⟩ := by
    simp only [stageTwiddle, ha, mul_zero, zero_add, hquarter, twiddleEntry_zero, quarterEntry_zero hm h15]
  rw [rotated_eq_crsh hN, htwiddle, stages, Nat.log2_two_pow, crsh_cmul_one]

/-! Impulses (95_test_vectors.md S2). -/

theorem bitReverse_eq_zero_iff {c : Params} {N j : Nat} (hN : isSize c N = true) (hj : j < N) : bitReverse j N = 0 ↔ j = 0 := by
  have hzero : bitReverse 0 N = 0 := Nat.eq_of_testBit_eq fun b => by rw [bitReverse, testBit_reverseBits]; simp
  exact ⟨fun h => by rw [← bitReverse_bitReverse hN hj, h, hzero], fun h => by rw [h, hzero]⟩

/-- The taps after stage `st` of the transform of an impulse: the first `2^(st+1)` of them are flat, and the others 0. -/
def impulseTaps (K : Int) (st j : Nat) : ScaledComplex := ⟨if j < 2 ^ (st + 1) then K else 0, 0⟩

theorem tapsAfter_impulse {c : Params} {N : Nat} (hN : isSize c N = true) (K : Int) :
    ∀ st < stages N, ∀ j < N, tapsAfter N (fun j => ⟨if j = 0 then K else 0, 0⟩) st j = impulseTaps K st j := by
  intro st
  induction st with
  | zero =>
    intro _ j hj
    have heven := even_of_isSize hN
    rcases Nat.mod_two_eq_zero_or_one j with h | h
    · simp [tapsAfter, stageZeroOn, impulseTaps, h, bitReverse_eq_zero_iff hN hj,
        bitReverse_eq_zero_iff hN (show j + 1 < N by omega), show j < 2 ↔ j = 0 by omega]
    · simp [tapsAfter, stageZeroOn, impulseTaps, h, bitReverse_eq_zero_iff hN hj,
        bitReverse_eq_zero_iff hN (show j - 1 < N by omega), show j < 2 ↔ j - 1 = 0 by omega, show j ≠ 0 by omega]
  | succ st ih =>
    intro hst j hj
    have ih := ih (by omega)
    have hpow : 2 ^ (st + 1 + 1) = 2 * 2 ^ (st + 1) := pow_succ' 2 (st + 1)
    obtain ⟨a, ha, hN', hcases⟩ := stageOn_pair hN hst (tapsAfter N (fun j => ⟨if j = 0 then K else 0, 0⟩) st) hj
    have hfirst : a < 2 * 2 ^ (st + 1) ↔ a < 2 ^ (st + 1) := ⟨fun h => by rwa [Nat.mod_eq_of_lt h] at ha, fun h => by omega⟩
    have hupper : impulseTaps K st (a + 2 ^ (st + 1)) = ⟨0, 0⟩ := by simp [impulseTaps]
    rw [ih a (by omega), ih _ hN', hupper, rotated_zero] at hcases
    rcases hcases with ⟨rfl, hval⟩ | ⟨rfl, hval⟩
    · simp [tapsAfter, hval, cadd, impulseTaps, hpow, hfirst]
    · simp [tapsAfter, hval, csub, impulseTaps, hpow, two_mul]

theorem fits_zero (W : Nat) : fits W 0 := ⟨by simp, by positivity⟩

/-- Settles O56: each stage copies the flat part of the taps into the zeros above it. -/
theorem impulseGivesAFlatSpectrum : Obligations.ImpulseGivesAFlatSpectrum := by
  intro N s K hinv hsize hready hK htaps
  obtain ⟨s1, t, hexec, hrun, hbusy, hdone, hend⟩ := xform_of_stages hinv hsize hready htaps (tapsAfter_impulse hsize K)
    fun st _ j => ⟨by rw [impulseTaps]; split; exacts [hK, fits_zero _], fits_zero _⟩
  refine ⟨s1, t, hexec, hrun, hbusy, hdone, fun j hj => ?_⟩
  have hall : j < 2 ^ (stages N.toNat - 1 + 1) := by
    rwa [Nat.sub_add_cancel (one_le_stages hsize), stages, two_pow_log2_of_isSize hsize]
  simpa [impulseTaps, hall] using hend j hj

/-! Constants (95_test_vectors.md S3). -/

/-- The taps after stage `st` of the transform of a constant: its sum over the group stands in the first tap of each group of
`2^(st+1)`, and the others are 0. -/
def constantTaps (K : Int) (st j : Nat) : ScaledComplex :=
  ⟨if j % 2 ^ (st + 1) = 0 then ((2 ^ (st + 1) : Nat) : Int) * K else 0, 0⟩

theorem tapsAfter_constant {c : Params} {N : Nat} (hc : c.Legal) (hN : isSize c N = true) (K : Int) :
    ∀ st < stages N, ∀ j < N, tapsAfter N (fun _ => ⟨K, 0⟩) st j = constantTaps K st j := by
  intro st
  induction st with
  | zero =>
    intro _ j _
    simp [tapsAfter, stageZeroOn, constantTaps, two_mul]
  | succ st ih =>
    intro hst j hj
    have ih := ih (by omega)
    have hpow : 2 ^ (st + 1 + 1) = 2 * 2 ^ (st + 1) := pow_succ' 2 (st + 1)
    obtain ⟨a, ha, hN', hcases⟩ := stageOn_pair hN hst (tapsAfter N (fun _ => ⟨K, 0⟩) st) hj
    have hmod : a % 2 ^ (st + 1) = a % (2 * 2 ^ (st + 1)) := by
      rw [← Nat.mod_mul_left_mod a 2, Nat.mod_eq_of_lt ha]
    have hupper : constantTaps K st (a + 2 ^ (st + 1)) = constantTaps K st a := by simp [constantTaps]
    have hturn : rotated N (constantTaps K st a) (stageTwiddle N (st + 1) a) = constantTaps K st a := by
      by_cases hfirst : a % 2 ^ (st + 1) = 0
      · exact rotated_stageTwiddle_zero hc hN (by omega) hst hfirst _
      · rw [constantTaps, if_neg hfirst, rotated_zero]
    rw [ih a (by omega), ih _ hN', hupper, hturn] at hcases
    rcases hcases with ⟨rfl, hval⟩ | ⟨rfl, hval⟩
    · rw [tapsAfter, hval, constantTaps, constantTaps, hpow, hmod]
      split_ifs
      · simp [cadd, two_mul, add_mul]
      · simp [cadd]
    · have hne : (a + 2 ^ (st + 1)) % (2 * 2 ^ (st + 1)) ≠ 0 := by
        have hhalf := Nat.two_pow_pos (st + 1)
        rw [upper_mod ha]
        omega
      rw [tapsAfter, hval, constantTaps, constantTaps, hpow, if_neg hne]
      simp [csub]

/-- A multiple that fits leaves room for every part of it. -/
theorem fits_two_pow_mul {W m n : Nat} {K : Int} (hmn : m ≤ n) (h : fits W (((2 ^ n : Nat) : Int) * K)) :
    fits W (((2 ^ m : Nat) : Int) * K) := by
  have hshift : floorShift (((2 ^ n : Nat) : Int) * K) (n - m) = ((2 ^ m : Nat) : Int) * K := by
    rw [← floorShift_mul_two_pow (((2 ^ m : Nat) : Int) * K) (n - m), mul_right_comm, ← Nat.cast_mul, ← pow_add,
      Nat.add_sub_cancel' hmn]
  exact hshift ▸ fits_floorShift h (n - m)

/-- Settles O57: each stage adds the sums of two groups in the first tap of the two, where the turn is by 1, and cancels them in the
middle one. -/
theorem constantGivesBinZero : Obligations.ConstantGivesBinZero := by
  intro N s K hinv hsize hready hK htaps
  have hN : 2 ^ stages N.toNat = N.toNat := two_pow_log2_of_isSize hsize
  obtain ⟨s1, t, hexec, hrun, hbusy, hdone, hend⟩ := xform_of_stages hinv hsize hready htaps
    (tapsAfter_constant hinv.1 hsize K) fun st hst j => ⟨by
      rw [constantTaps]
      split
      · exact fits_two_pow_mul (n := stages N.toNat) hst (hN.symm ▸ hK)
      · exact fits_zero _, fits_zero _⟩
  refine ⟨s1, t, hexec, hrun, hbusy, hdone, fun j hj => ?_⟩
  have hlast := hend j hj
  rw [constantTaps, Nat.sub_add_cancel (one_le_stages hsize), hN, Nat.mod_eq_of_lt hj] at hlast
  exact hlast

end Sys2Proof.Machine
end

section
/-! PROOFS. The headroom condition (44_butterfly_engine.md R169, 70_reset_and_hazards.md R248): a bound on the magnitude of every tap, from
stage to stage, by the magnitude of a twiddle pair (41_twiddle_rom.md R113). The rule's `1/√2` and `√2` for the rounding of a pair and
of a shift are taken as `3/4` and `2`. -/

namespace Sys2Proof.Machine

/-! Magnitudes of the datapath's results. -/

theorem complexValue_cadd (v w : ScaledComplex) : complexValue (cadd v w) = complexValue v + complexValue w := by
  apply Complex.ext <;> simp [complexValue, cadd]

theorem complexValue_csub (v w : ScaledComplex) : complexValue (csub v w) = complexValue v - complexValue w := by
  apply Complex.ext <;> simp [complexValue, csub]

theorem norm_le_of_parts_le_half {z : ℂ} (hre : |z.re| ≤ 1 / 2) (him : |z.im| ≤ 1 / 2) : ‖z‖ ≤ 3 / 4 := by
  have hroot : √2 ≤ 3 / 2 := Real.sqrt_le_iff.mpr (by norm_num)
  calc ‖z‖ ≤ √2 * max |z.re| |z.im| := Complex.norm_le_sqrt_two_mul_max z
    _ ≤ 3 / 2 * (1 / 2) := mul_le_mul hroot (max_le hre him) (by positivity) (by norm_num)
    _ = 3 / 4 := by norm_num

/-- A pair of the table lies within the rounding of two entries of the circle (41_twiddle_rom.md R113). -/
theorem norm_twiddlePair_le {m : Nat} (h2 : 2 ≤ m) (h12 : m ≤ 12) (i : Nat) :
    ‖complexValue (twiddlePair (2 ^ m) i)‖ ≤ 2 ^ m + 3 / 4 := by
  obtain ⟨H, hH, hA⟩ := exists_quarter_length h2
  have hcos := tableEntriesAreRoundedCosines m i (by omega) h12
  have hsin := tableEntriesAreRoundedCosines m (i + quarterOffset (2 ^ m)) (by omega) h12
  set x := -(2 * Real.pi) * (i : ℝ) / (2 ^ m : ℝ) with hx
  have hquarter : -(2 * Real.pi) * ((i + quarterOffset (2 ^ m) : Nat) : ℝ) / (2 ^ m : ℝ) = x - Real.pi / 2 := by
    have hcast : (2 ^ m : ℝ) = 4 * H := by exact_mod_cast hA
    have hpos : (0 : ℝ) < H := by exact_mod_cast hH
    rw [quarterOffset, hA, Nat.mul_div_cancel_left H (by norm_num), hx, hcast, Nat.cast_add]
    field_simp
    ring
  rw [hquarter, Real.cos_sub_pi_div_two] at hsin
  set z := complexValue (twiddlePair (2 ^ m) i) - ((2 ^ m : ℝ) : ℂ) * Complex.exp (x * Complex.I) with hz
  have hround : ‖z‖ ≤ 3 / 4 := by
    refine norm_le_of_parts_le_half ?_ ?_
    · rw [hz, Complex.sub_re, Complex.re_ofReal_mul, Complex.exp_ofReal_mul_I_re]
      exact hcos.le
    · rw [hz, Complex.sub_im, Complex.im_ofReal_mul, Complex.exp_ofReal_mul_I_im]
      exact hsin.le
  calc ‖complexValue (twiddlePair (2 ^ m) i)‖
      = ‖((2 ^ m : ℝ) : ℂ) * Complex.exp (x * Complex.I) + z‖ := by rw [hz, add_sub_cancel]
    _ ≤ 2 ^ m * 1 + 3 / 4 := by
        refine norm_add_le_of_le ?_ hround
        rw [norm_mul, Complex.norm_exp_ofReal_mul_I, Complex.norm_of_nonneg (by positivity)]
    _ = 2 ^ m + 3 / 4 := by rw [mul_one]

section stage

variable {c : Params} {N : Nat}

/-- The shift adds less than a unit to each part of the quotient. -/
theorem norm_rotated_le (hN : isSize c N = true) (o w : ScaledComplex) :
    ‖complexValue (rotated N o w)‖ ≤ ‖complexValue o‖ * ‖complexValue w‖ / N + 2 := by
  have hpow : (2 : ℝ) ^ stages N = N := by exact_mod_cast two_pow_log2_of_isSize hN
  have hshift := norm_crsh_sub_le (cmul o w) (stages N)
  rw [← rotated_eq_crsh hN, complexValue_cmul, hpow] at hshift
  have hquot : ‖complexValue o * complexValue w / ((N : ℝ) : ℂ)‖ = ‖complexValue o‖ * ‖complexValue w‖ / N := by
    rw [norm_div, norm_mul, Complex.norm_of_nonneg (Nat.cast_nonneg N)]
  rw [← hquot]
  exact norm_le_norm_add_const_of_dist_le ((dist_eq_norm _ _).trans_le hshift)

/-- How much a general stage can grow the magnitudes, with 2 added to them. -/
theorem norm_stageOn_le (hN : isSize c N = true) (h12 : N ≤ 4096) {st j : Nat} (h1 : 1 ≤ st) (hst : st < stages N)
    {v : Nat → ScaledComplex} {R : ℝ} (hv : ∀ j < N, ‖complexValue (v j)‖ + 2 ≤ R) (hj : j < N) :
    ‖complexValue (stageOn N st v j)‖ + 2 ≤ (2 + 3 / (4 * N)) * R := by
  have hlog : 2 ^ stages N = N := two_pow_log2_of_isSize hN
  have hpos : (0 : ℝ) < N := by exact_mod_cast hlog ▸ Nat.two_pow_pos _
  have hstages : stages N ≤ 12 := (Nat.pow_le_pow_iff_right Nat.one_lt_two).mp (hlog.trans_le h12)
  obtain ⟨a, -, hupp, hcases⟩ := stageOn_pair hN hst v hj
  have hlow := hv a ((Nat.le_add_right a _).trans_lt hupp)
  have hupp := hv _ hupp
  have hw : ‖complexValue (stageTwiddle N st a)‖ ≤ N + 3 / 4 := by
    have hpair := norm_twiddlePair_le (m := stages N) (by omega) hstages (N / 2 ^ (st + 1) * (a % 2 ^ st))
    rw [hlog, ← Nat.cast_ofNat (R := ℝ), ← Nat.cast_pow, hlog] at hpair
    exact_mod_cast hpair
  have hturn := norm_rotated_le hN (v (a + 2 ^ st)) (stageTwiddle N st a)
  have hsum : ‖complexValue (stageOn N st v j)‖ ≤
      ‖complexValue (v a)‖ + ‖complexValue (rotated N (v (a + 2 ^ st)) (stageTwiddle N st a))‖ := by
    rcases hcases with ⟨-, hval⟩ | ⟨-, hval⟩ <;> rw [hval]
    · rw [complexValue_cadd]
      exact norm_add_le _ _
    · rw [complexValue_csub]
      exact norm_sub_le _ _
  have hproduct : ‖complexValue (v (a + 2 ^ st))‖ * ‖complexValue (stageTwiddle N st a)‖ / N ≤ (R - 2) * (N + 3 / 4) / N := by
    have hR : 0 ≤ R - 2 := by linarith [norm_nonneg (complexValue (v a))]
    gcongr
    linarith
  have hexpand : (R - 2) * (N + 3 / 4) / N = (2 + 3 / (4 * N)) * R - R - 2 - 3 / (2 * N) := by
    field_simp
    ring
  have hspare : 0 ≤ 3 / (2 * (N : ℝ)) := by positivity
  linarith

end stage

/-! The bound of every stage (R169). -/

/-- The taps of a real input after stage 0 (R153). -/
theorem norm_stageZeroOn_le {c : Params} {N : Nat} (hN : isSize c N = true) {x : Nat → Int} {B : Nat}
    (hx : ∀ j < N, |x j| ≤ (B : Int)) (j : Nat) :
    ‖complexValue (stageZeroOn N (fun j => ⟨x j, 0⟩) j)‖ ≤ 2 * B := by
  have hr : ∀ i, |x (bitReverse i N)| ≤ (B : Int) := fun i => hx _ (bitReverse_lt i hN)
  have hre : |(stageZeroOn N (fun j => ⟨x j, 0⟩) j).re| ≤ 2 * (B : Int) := by
    rw [stageZeroOn, two_mul]
    split_ifs
    · exact (abs_add_le _ _).trans (add_le_add (hr _) (hr _))
    · exact (abs_sub _ _).trans (add_le_add (hr _) (hr _))
  have hcast : |((stageZeroOn N (fun j => ⟨x j, 0⟩) j).re : ℝ)| ≤ 2 * B := by exact_mod_cast hre
  refine (Complex.norm_le_abs_re_add_abs_im _).trans ?_
  simpa [complexValue, stageZeroOn] using hcast

theorem norm_tapsAfter_le {c : Params} {N : Nat} (hN : isSize c N = true) (h12 : N ≤ 4096) {x : Nat → Int} {B : Nat}
    (hx : ∀ j < N, |x j| ≤ (B : Int)) :
    ∀ st < stages N, ∀ j < N,
      ‖complexValue (tapsAfter N (fun j => ⟨x j, 0⟩) st j)‖ + 2 ≤ (2 + 3 / (4 * N)) ^ st * (2 * (B + 1) : ℝ) := by
  intro st
  induction st with
  | zero =>
    intro _ j _
    have hzero := norm_stageZeroOn_le hN hx j
    rw [tapsAfter, pow_zero, one_mul]
    linarith
  | succ st ih =>
    intro hst j hj
    rw [pow_succ', mul_assoc]
    exact norm_stageOn_le hN h12 (by omega) hst (ih (by omega)) hj

/-- Over all stages the rounding grows the magnitudes by less than a tenth (R169). -/
theorem growth_le {m st : Nat} (h1 : 1 ≤ m) (h12 : m ≤ 12) (hst : st < m) :
    (2 + 3 / (4 * 2 ^ m)) ^ st * 2 ≤ (11 / 10 * 2 ^ m : ℝ) := by
  have hall : (1 + 3 / (8 * 2 ^ m)) ^ (m - 1) ≤ (11 / 10 : ℝ) := by interval_cases m <;> norm_num
  have hone : (1 : ℝ) ≤ 1 + 3 / (8 * 2 ^ m) := le_add_of_nonneg_right (by positivity)
  calc (2 + 3 / (4 * 2 ^ m)) ^ st * 2 = (1 + 3 / (8 * 2 ^ m)) ^ st * 2 ^ (st + 1) := by
        rw [pow_succ, ← mul_assoc, ← mul_pow]
        congr 2
        field_simp
        ring
    _ ≤ (1 + 3 / (8 * 2 ^ m)) ^ (m - 1) * 2 ^ m :=
        mul_le_mul (pow_le_pow_right₀ hone (by omega)) (pow_le_pow_right₀ one_le_two hst) (by positivity) (by positivity)
    _ ≤ 11 / 10 * 2 ^ m := by gcongr

theorem fits_of_norm_lt {W : Nat} {v : ScaledComplex} (h : ‖complexValue v‖ < ((2 ^ (W - 1) : Nat) : ℝ)) :
    fits W v.re ∧ fits W v.im := by
  have hre : |(v.re : ℝ)| < ((2 ^ (W - 1) : Nat) : ℝ) := (Complex.abs_re_le_norm (complexValue v)).trans_lt h
  have him : |(v.im : ℝ)| < ((2 ^ (W - 1) : Nat) : ℝ) := (Complex.abs_im_le_norm (complexValue v)).trans_lt h
  have part {y : Int} (hy : |(y : ℝ)| < ((2 ^ (W - 1) : Nat) : ℝ)) : fits W y := by
    have hint : |y| < ((2 ^ (W - 1) : Nat) : Int) := by exact_mod_cast hy
    exact ⟨(abs_lt.mp hint).1.le, (abs_lt.mp hint).2⟩
  exact ⟨part hre, part him⟩

/-- Settles O58: a bound on the magnitudes grows from stage to stage as R169 says, so that every value of every stage fits, and the
transform completes. -/
theorem headroomRulesOverflowOut : Obligations.HeadroomRulesOverflowOut := by
  intro N s x B hinv hsize h4096 hready htaps hx hroom
  have hstages := one_le_stages hsize
  have hlog : 2 ^ stages N.toNat = N.toNat := two_pow_log2_of_isSize hsize
  have h12 : stages N.toNat ≤ 12 := (Nat.pow_le_pow_iff_right Nat.one_lt_two).mp (hlog.trans_le h4096)
  have hcast : (2 : ℝ) ^ stages N.toNat = N.toNat := by exact_mod_cast hlog
  have hroom : 11 / 10 * (N.toNat : ℝ) * (B + 1) ≤ ((2 ^ (s.cfg.sampleW - 1) : Nat) : ℝ) := by
    have hnat : 11 * N.toNat * (B + 1) ≤ 10 * 2 ^ (s.cfg.sampleW - 1) := by omega
    have hreal : 11 * (N.toNat : ℝ) * (B + 1) ≤ 10 * ((2 ^ (s.cfg.sampleW - 1) : Nat) : ℝ) := by exact_mod_cast hnat
    linarith
  have hfit : StagesFit s.cfg N.toNat fun j => ⟨x j, 0⟩ := by
    intro st hst j hj
    have hnorm := norm_tapsAfter_le hsize h4096 hx st hst j hj
    have hgrow := growth_le hstages h12 hst
    rw [hcast] at hgrow
    have hB := mul_le_mul_of_nonneg_right hgrow (show (0 : ℝ) ≤ B + 1 by positivity)
    refine fits_of_norm_lt ?_
    linarith
  obtain ⟨s1, t, hexec, hrun, hbusy, hdone, -⟩ := xformComputesItsStages N s _ hinv hsize hready htaps hfit
  exact ⟨s1, t, hexec, hrun, hbusy, hdone⟩

end Sys2Proof.Machine
end

section
/-! PROOFS. The four commands (45_commands.md R180 to R188): the step that takes one from the Host, what each issue answers, how a
running command ends, and what the Host reads of a table. -/

namespace Sys2Proof.Machine

/-! The step of a command. -/

theorem hostAccess_command {s : State} {c : PortCycle} {i : Instr} (h : Writes s c .cmd) (hi : decodeCmd c.wdata = some i) :
    hostAccess c s = exec i s := by
  obtain ⟨-, hsel, hwe, htarget⟩ := h
  simp only [hostAccess, hsel, hwe, hostWrite, htarget, writeCmd, hi, if_true]

/-- Settles O5: the edge is the access, which is exec of the command, and then the operation of an Engine that was busy before. -/
theorem stepRunsTheWrittenCommand : Obligations.StepRunsTheWrittenCommand := by
  intro s c rest i hnext hwrites hi
  have haccess : hostAccess c (atEdge s rest) = exec i (atEdge s rest) := hostAccess_command hwrites hi
  refine ⟨?_, fun hno => ?_⟩
  · rw [step_cycle hnext, portEdge, hwrites.1, haccess]
    rfl
  · rw [step_cycle hnext, portEdge_access (atEdge s rest) hwrites.1 hno, haccess]

/-- Settles O7: a command word is the Host's next write to `CMD`, at address 0, and a select code stands on the select lines. -/
theorem fetchWordIsRunNext : Obligations.FetchWordIsRunNext := by
  intro s nbits w i hdecode
  rw [decodeTableWord] at hdecode
  cases hword : tableWord nbits w with
  | none => simp [hword] at hdecode
  | some e =>
    rw [hword] at hdecode
    cases e with
    | cmd word =>
      have hfetch : s.withFetchWord nbits w = { s with uop := none, host := writeCycle 0 word false :: s.host } := by
        rw [State.withFetchWord, hword]
      rw [hfetch]
      exact (stepRunsTheWrittenCommand { s with uop := none, host := writeCycle 0 word false :: s.host }
        (writeCycle 0 word false) s.host i ⟨rfl, rfl⟩ ⟨rfl, rfl, rfl, target_cmd s.cfg⟩ hdecode).2 (.inr rfl)
    | uop u =>
      have hfetch : s.withFetchWord nbits w = { s with uop := some u } := by rw [State.withFetchWord, hword]
      rw [hfetch]
      exact (stepRunsTheSelectedOperation { s with uop := some u } u rfl).1 i hdecode

/-! The issue of a command (45_commands.md R180, 60_exceptions.md R213). -/

section issue

variable {check : State → Option Cause} {accept : State → State} {s : State}

theorem issue_busy (hb : s.status.busy = true) : issue check accept s = .next (reject .busyViolation s) := if_pos hb

theorem issue_rejected {c : Cause} (hb : s.status.busy = false) (hc : check s = some c) :
    issue check accept s = .next (reject c s) := by
  simp [issue, hb, hc]

theorem issue_accepted (hb : s.status.busy = false) (hc : check s = none) : issue check accept s = .next (accept s) := by
  simp [issue, hb, hc]

end issue

/-- The check of a size (60_exceptions.md R212) fails when the operand is no power of two of the block. -/
theorem isSize_eq_false {c : Params} {v : Nat} (h : ¬∃ m, 1 ≤ m ∧ m ≤ c.log2Amax ∧ v = 2 ^ m) : isSize c v = false :=
  Bool.eq_false_iff.mpr (mt isSize_iff.mp h)

theorem execBuild_accepted {A : BitVec 16} {s : State} (hb : s.status.busy = false) (hA : isSize s.cfg A.toNat = true) :
    exec (.build A) s = .next (acceptBuild A.toNat s) :=
  issue_accepted hb (if_pos hA)

/-- Settles O11: the one check of BUILD is that of its size, whose logarithm goes to `SEQ.m`. -/
theorem buildIsIssued : Obligations.BuildIsIssued := by
  intro A s
  refine ⟨issue_busy, fun hb hA => issue_rejected hb ?_, fun m hb h1 hm hA => ?_⟩
  · simp [checkBuild, isSize_eq_false hA]
  · have hlog : Nat.log2 A.toNat = m := by rw [hA, Nat.log2_two_pow]
    rw [execBuild_accepted hb (isSize_iff.mpr ⟨m, h1, hm, hA⟩), acceptBuild, hlog]
    rfl

/-- Settles O12: of the size, the table and the size of the table, the first that fails is reported. -/
theorem xformIsIssued : Obligations.XformIsIssued := by
  intro N s
  refine ⟨issue_busy, fun hb hN => issue_rejected hb ?_, fun m hb h1 hm hN => ?_⟩
  · simp [checkXform, isSize_eq_false hN]
  have hsize : isSize s.cfg N.toNat = true := isSize_iff.mpr ⟨m, h1, hm, hN⟩
  have hlog : Nat.log2 N.toNat = m := by rw [hN, Nat.log2_two_pow]
  refine ⟨fun hv => issue_rejected hb ?_, fun hv hA => issue_rejected hb ?_, fun hv hA => ?_⟩
  · simp [checkXform, hsize, hv]
  · simp [checkXform, hsize, hv, hA]
  · have haccept : exec (.xform N) s = .next (acceptXform N.toNat s) :=
      issue_accepted hb (by simp [checkXform, hsize, hv, hA])
    rw [haccept, acceptXform, hlog]
    rfl

/-- Settles O13: RELEASE checks that there is a table, CLRSTAT checks nothing. -/
theorem releaseAndClrstatAreIssued : Obligations.ReleaseAndClrstatAreIssued := by
  intro s
  refine ⟨fun hb => ⟨issue_busy hb, issue_busy (check := fun _ => none) (accept := acknowledge) hb⟩,
    fun hb => ⟨fun hv => issue_rejected hb ?_, fun hv => ?_, ?_⟩⟩
  · simp [checkRelease, hv]
  · exact issue_accepted hb (if_pos hv)
  · exact issue_accepted (check := fun _ => none) (accept := acknowledge) hb rfl

/-! How a running command ends (45_commands.md R189). -/

/-- No operation that the sequencer makes touches the flags. -/
theorem exec_nextOperation_status {q : Seq} {i : Instr} {s t : State} (hi : nextOperation q = some i)
    (ht : exec i s = .next t) : t.status = s.status := by
  cases hph : q.phase <;> simp only [nextOperation, hph, reduceCtorEq, Option.some.injEq] at hi <;> subst hi
  case building =>
    rw [exec, execTwgen] at ht
    split at ht
    · injection ht with ht
      rw [← ht, put_status]
    · cases ht
  case permute =>
    obtain ⟨u, hu, hframe⟩ := execBrpass_next q.n s
    obtain rfl : u = t := by injection hu.symm.trans ht
    rw [hframe]
  case stage0 =>
    obtain ⟨-, -, -, rfl⟩ := execPair0_next ht
    simp
  case general =>
    obtain ⟨s1, s2, h1, h2, rfl⟩ := execDbfly_next ht
    rw [butterfly_frame h2, butterfly_frame h1]

/-- The sequencer goes on with `BUSY` as it is, or completes the command. -/
theorem advance_busy_or_done (ph : Phase) (s : State) :
    (advance ph s).status.busy = s.status.busy ∨ (advance ph s).status.done = true := by
  cases ph with
  | idle => exact .inl rfl
  | permute => exact .inl rfl
  | building =>
    simp only [advance, afterTwgen]
    split_ifs
    · exact .inl rfl
    · exact .inr rfl
  | stage0 =>
    simp only [advance, afterPair0]
    split_ifs
    · exact .inl rfl
    · exact .inl rfl
    · exact .inr rfl
  | general =>
    simp only [advance, afterDbfly]
    split_ifs
    · exact .inl rfl
    · exact .inl rfl
    · exact .inr rfl

theorem engineOp_busy_or_done {s t : State} (hb : s.status.busy = true) (ht : engineOp s = .next t) :
    t.status.busy = true ∨ t.status.done = true := by
  rcases engineOp_next ht with ⟨-, rfl⟩ | ⟨i, u, hi, hu, rfl⟩
  · exact .inl hb
  · have hstatus : u.status = s.status := exec_nextOperation_status hi hu
    exact (advance_busy_or_done _ u).imp_left fun hkeep => by rw [hkeep, hstatus, hb]

theorem HostEffect.busy_stays {s u : State} (h : HostEffect s u) (hb : s.status.busy = true) : u.status.busy = true := by
  cases h with
  | nothing => exact hb
  | rejected c => rw [reject_busy, hb]
  | read d => exact hb
  | sample d => rw [put_status, hb]
  | build => rfl
  | xform => rfl
  | release => exact hb
  | clrstat => exact hb

theorem step_busy_or_done {s t : State} (h : Inv s) (hb : s.status.busy = true) (hstep : step s = .next t)
    (hrst : ∀ c rest, NextCycle s c rest → c.rst = false) : t.status.busy = true ∨ t.status.done = true := by
  obtain ⟨-, -, huop⟩ := inv_iff.mp h
  rcases step_next hstep with ⟨u, i, hu, -⟩ | ⟨-, c, rest, hhost, hedge⟩
  · simp [huop] at hu
  · rcases portEdge_next hedge with ⟨hreset, -⟩ | ⟨-, u, hu, rfl | ⟨-, -, ht⟩⟩
    · rcases hhost with hhost | ⟨rfl, -⟩
      · simp [hrst c rest ⟨huop, hhost⟩] at hreset
      · exact absurd hreset Bool.false_ne_true
    · exact .inl (hu.busy_stays hb)
    · exact engineOp_busy_or_done (hu.busy_stays hb) ht

/-- Settles O41: `BUSY` ends only where `DONE` is set, and by the invariant the two are never set together. -/
theorem busyEndsInDone : Obligations.BusyEndsInDone := by
  intro s t h hb hstep hrst
  obtain ⟨-, hc, -⟩ := inv_iff.mp (stepKeepsTheInvariant s t h hstep)
  obtain ⟨-, hexclusive, -⟩ := hc.flags
  rcases step_busy_or_done h hb hstep hrst with hbusy | hdone
  · exact .inl ⟨hbusy, by simpa [hbusy] using hexclusive⟩
  · exact .inr ⟨by simpa [hdone] using hexclusive, hdone⟩

/-! Reads of the table (45_commands.md R188). -/

/-- Settles O46: the offset is below the 2 AMAX of the space, and the entry is a listed word. -/
theorem tableReadsReturnTheEntries : Obligations.TableReadsReturnTheEntries := by
  intro s i hb hv hsize htable hi
  have hoff : i < 2 * s.cfg.amax := two_mul_amax s.cfg ▸ hi.trans (depth_lt_of_isSize hsize)
  have hload : load s .tw i = twiddleEntry s.tableA i := load_of_find (htable i hi)
  simp only [hostRead, target_tw_space hoff, readTable, hb, hv, hi, hload, sext32, and_self, if_true, Bool.false_eq_true, if_false]

end Sys2Proof.Machine
end

section
/-! PROOFS. A BUILD left alone (45_commands.md R181, 41_twiddle_rom.md R115): one entry a step, until the table is whole. -/

namespace Sys2Proof.Machine

/-- The last step of a run. -/
theorem run_succ_of_run {k : Nat} {s t : State} (h : run k s = .next t) : run (k + 1) s = step t := by
  rw [run_add, h, andThen_next, run]
  cases step t <;> rfl

/-- A BUILD of base size `A`, accepted in the state `s0` and left alone, has made the entries below `k`. -/
structure Building (s0 : State) (A k : Nat) (s : State) : Prop where
  cfg : s.cfg = s0.cfg
  alone : Alone s
  status : s.status = (s0.status.setTableValid false).start
  phase : s.seq.phase = .building
  size : s.seq.n = A
  index : s.seq.i = k
  table : TableHolds s.tw A k
  re : s.re = s0.re
  im : s.im = s0.im

theorem building_acceptBuild {s : State} (A : Nat) (h : Alone s) : Building s A 0 (acceptBuild A s) :=
  ⟨rfl, h, rfl, rfl, rfl, rfl, fun i hi => absurd hi (Nat.not_lt_zero i), rfl, rfl⟩

theorem afterTwgen_of_lt {s : State} (h : s.seq.i + 1 < depth s.seq.n) :
    afterTwgen s = s.setSeq { s.seq with i := s.seq.i + 1 } :=
  if_pos h

theorem afterTwgen_of_last {s : State} (h : s.seq.i + 1 = depth s.seq.n) :
    afterTwgen s = completeBuild (s.setSeq { s.seq with i := s.seq.i + 1 }) :=
  if_neg (by omega)

namespace Building

variable {s0 s : State} {A k : Nat}

/-- A step of a BUILD makes the next entry. -/
theorem step_eq (h : Building s0 A k s) (hA : isSize s0.cfg A = true) (hk : k < depth A) :
    step s = .next (afterTwgen (put (atEdge s []) .tw k (twiddleEntry A k))) := by
  have hsize : isSize (atEdge s []).cfg A = true := h.cfg ▸ hA
  have hop : nextOperation s.seq = some (.twgen A k) := by rw [nextOperation, h.phase, h.size, h.index]
  have hexec := execTwgen_next A (hk.trans_le (depth_le_of_isSize hsize))
  rw [generatedEntry_of_isSize k hsize] at hexec
  rw [step_of_exec h.alone (by rw [h.status]; rfl) hop hexec, h.phase, advance]

theorem step (h : Building s0 A k s) (hA : isSize s0.cfg A = true) (hk : k + 1 < depth A) :
    ∃ t, step s = .next t ∧ Building s0 A (k + 1) t := by
  refine ⟨_, h.step_eq hA (Nat.lt_of_succ_lt hk), ?_⟩
  rw [afterTwgen_of_lt (by rw [put_seq]; exact h.index.symm ▸ h.size.symm ▸ hk)]
  exact ⟨h.cfg, ⟨rfl, h.alone.2⟩, h.status, h.phase, h.size, congrArg (· + 1) h.index, tableHolds_write h.table, h.re, h.im⟩

/-- The run of a BUILD before its last entry. -/
theorem run (h : Building s0 A 0 s) (hA : isSize s0.cfg A = true) (hk : k < depth A) :
    ∃ t, run k s = .next t ∧ Building s0 A k t := by
  induction k with
  | zero => exact ⟨s, rfl, h⟩
  | succ k ih =>
    obtain ⟨u, hu, hbuild⟩ := ih (Nat.lt_of_succ_lt hk)
    rw [run_succ_of_run hu]
    exact hbuild.step hA hk

/-- The step that makes the last entry completes the command. -/
theorem step_last (h : Building s0 A k s) (hA : isSize s0.cfg A = true) (hk : k + 1 = depth A) :
    ∃ t, Machine.step s = .next t ∧ t.status = { s0.status with busy := false, done := true, tableValid := true } ∧
      t.seq.phase = .idle ∧ t.tableA = A ∧ TableHolds t.tw A (depth A) ∧ t.re = s0.re ∧ t.im = s0.im := by
  refine ⟨_, h.step_eq hA (by omega), ?_⟩
  rw [afterTwgen_of_last (by rw [put_seq]; exact h.index.symm ▸ h.size.symm ▸ hk)]
  refine ⟨?_, rfl, h.size, hk ▸ tableHolds_write h.table, h.re, h.im⟩
  show s.status.complete.setTableValid true = _
  rw [h.status]
  rfl

end Building

/-- Settles O50: the accepted command makes one entry a step, and with the last one the table is valid. -/
theorem buildRunsToCompletion : Obligations.BuildRunsToCompletion := by
  intro A s _ hA hb halone
  have hstart := building_acceptBuild A.toNat halone
  obtain ⟨last, hlast⟩ := Nat.exists_eq_add_one.mpr (depth_pos_of_isSize hA)
  refine ⟨acceptBuild A.toNat s, execBuild_accepted hb hA, fun k hk => ?_, ?_⟩
  · obtain ⟨u, hu, hbuild⟩ := hstart.run hA hk
    exact ⟨u, hu, by rw [hbuild.status]; exact ⟨rfl, rfl, rfl⟩⟩
  · obtain ⟨u, hu, hbuild⟩ := hstart.run (k := last) hA (by omega)
    obtain ⟨t, ht, hdone⟩ := hbuild.step_last hA hlast.symm
    exact ⟨t, by rw [hlast, run_succ_of_run hu, ht], hdone⟩

end Sys2Proof.Machine
end

section
/-! PROOFS. The error report (60_exceptions.md R211 to R218). An internal operation and the sequencer look neither at the report nor at the
read port, so they do the same beside any report and leave it as it was; the Host's access alone makes a report and ends it. -/

namespace Sys2Proof.Machine

/-! Putting another error report and another read port into a state. -/

/-- What the Host is told at an edge, beside the flags of the running command: the error report and the read port. -/
structure Report where
  err : Bool
  errCode : BitVec 4
  rdata : Option PortWord

def State.report (s : State) : Report := ⟨s.status.err, s.status.errCode, s.rdata⟩

def State.withReport (r : Report) (s : State) : State :=
  { s with status := { s.status with err := r.err, errCode := r.errCode }, rdata := r.rdata }

theorem withReport_report (s : State) : s.withReport s.report = s := rfl

theorem report_withReport (r : Report) (s : State) : (s.withReport r).report = r := rfl

theorem hideError_eq (s : State) : hideError s = s.withReport ⟨false, 0, s.rdata⟩ := rfl

theorem hideReport_eq (s : State) : hideReport s = s.withReport ⟨false, 0, none⟩ := rfl

section withReport

variable (r : Report) (s : State)

@[simp] theorem withReport_cfg : (s.withReport r).cfg = s.cfg := rfl
@[simp] theorem withReport_seq : (s.withReport r).seq = s.seq := rfl

@[simp] theorem load_withReport (sp : Space) (i : Nat) : load (s.withReport r) sp i = load s sp i :=
  load_congr i (by cases sp <;> rfl) rfl rfl

@[simp] theorem put_withReport (sp : Space) (i : Nat) (v : Int) :
    put (s.withReport r) sp i v = (put s sp i v).withReport r := by
  cases sp <;> rfl

@[simp] theorem lookup_withReport (z P : Nat) : lookup (s.withReport r) z P = lookup s z P := rfl

theorem reorderAt_withReport (N i : Nat) : reorderAt N (s.withReport r) i = (reorderAt N s i).withReport r := by
  simp only [reorderAt, swapRe, load_withReport, put_withReport, show passIndex (s.withReport r) i N = passIndex s i N from rfl]
  split <;> rfl

theorem advance_withReport (ph : Phase) : advance ph (s.withReport r) = (advance ph s).withReport r := by
  cases ph with
  | idle => rfl
  | permute => rfl
  | building =>
    simp only [advance, afterTwgen, apply_ite (State.withReport r)]
    rfl
  | stage0 =>
    simp only [advance, afterPair0, apply_ite (State.withReport r)]
    rfl
  | general =>
    simp only [advance, afterDbfly, apply_ite (State.withReport r)]
    rfl

end withReport

/-! The operations that neither look at the report nor write it. -/

/-- Beside another report, the answer is the same beside that report. -/
def IgnoresReport (f : State → Answer) : Prop :=
  ∀ r s, f (s.withReport r) = Answer.map (State.withReport r) (f s)

namespace IgnoresReport

variable {f : State → Answer}

theorem andThen_map (hf : IgnoresReport f) (r : Report) (x : Answer) :
    andThen (Answer.map (State.withReport r) x) f = Answer.map (State.withReport r) (andThen x f) := by
  cases x with
  | next s => exact hf r s
  | fault x => rfl
  | refused x => rfl

/-- What does not look at the report leaves it as it was: the answer beside the state's own report is the answer. -/
theorem report_eq (hf : IgnoresReport f) {s t : State} (h : f s = .next t) : t.report = s.report := by
  have hown := hf s.report s
  rw [withReport_report, h] at hown
  injection hown with hown
  rw [hown, report_withReport]

theorem hideReport (hf : IgnoresReport f) (s : State) :
    f (Machine.hideReport s) = Answer.map Machine.hideReport (f s) := hf ⟨false, 0, none⟩ s

theorem hideError (hf : IgnoresReport f) (s : State) :
    f (Machine.hideError s) = Answer.map Machine.hideError (f s) := by
  rw [hideError_eq, hf]
  cases h : f s with
  | next t =>
    have hrdata : t.rdata = s.rdata := congrArg Report.rdata (hf.report_eq h)
    rw [Answer.map, Answer.map, hideError_eq, hrdata]
  | fault x => rfl
  | refused x => rfl

end IgnoresReport

theorem store_ignoresReport (sp : Space) (j : Nat) (v : Int) : IgnoresReport (store sp j v) := by
  intro r s
  simp only [store, withReport_cfg, put_withReport]
  split_ifs <;> rfl

theorem storeTap_ignoresReport (j : Nat) (v : ScaledComplex) : IgnoresReport (storeTap j v) := by
  intro r s
  rw [storeTap, store_ignoresReport, (store_ignoresReport .im j v.im).andThen_map, storeTap]

theorem deliver_ignoresReport (x : Result) : IgnoresReport (deliver x) := fun _ _ => rfl

theorem butterfly_ignoresReport (a b z p m : Nat) : IgnoresReport (butterfly a b z p m) := by
  intro r s
  have hlatch : ∀ w, latch (s.withReport r) a b m w = latch s a b m w := fun w => by simp only [latch, loadTap, load_withReport]
  simp only [butterfly, withReport_cfg, lookup_withReport, hlatch]
  split_ifs with hab
  · cases lookup s z (2 * p) with
    | none => rfl
    | some w =>
      dsimp only
      rw [← (storeTap_ignoresReport b _).andThen_map, ← storeTap_ignoresReport a _]
      rfl
  · rfl

theorem execPair0_ignoresReport (i : Nat) : IgnoresReport (execPair0 i) := by
  intro r s
  simp only [execPair0, withReport_cfg, load_withReport]
  split_ifs with hi
  · rw [store_ignoresReport, (store_ignoresReport .re (i + 1) _).andThen_map]
  · rfl

theorem execDbfly_ignoresReport (i k2 z p M : Nat) : IgnoresReport (execDbfly i k2 z p M) := by
  have hsecond : IgnoresReport fun s1 => andThen (butterfly (i + 1) (i + 1 + k2) (nextZ z p) p M s1)
      (deliver (.index (nextZ (nextZ z p) p))) := fun r s1 => by
    dsimp only
    rw [butterfly_ignoresReport, (deliver_ignoresReport _).andThen_map]
  intro r s
  rw [execDbfly, butterfly_ignoresReport, hsecond.andThen_map, execDbfly]

theorem execBrpass_ignoresReport (N : Nat) : IgnoresReport (execBrpass N) := fun r _ =>
  congrArg Host.Outcome.next (List.foldl_hom (State.withReport r) fun s i => reorderAt_withReport r s N i)

/-- Every internal operation (60_exceptions.md R217). -/
theorem exec_ignoresReport {i : Instr} {u : UopWord} (hi : encode i = .uop u) : IgnoresReport (exec i) := by
  cases i with
  | build size => cases hi
  | xform size => cases hi
  | release => cases hi
  | clrstat => cases hi
  | cadd a b => exact deliver_ignoresReport _
  | csub a b => exact deliver_ignoresReport _
  | cmul a b => exact deliver_ignoresReport _
  | crsh a sh =>
    intro r s
    simp only [exec, execCrsh]
    split_ifs <;> rfl
  | twlk z P =>
    intro r s
    simp only [exec, execTwlk, lookup_withReport]
    cases lookup s z P <;> rfl
  | brev j N =>
    intro r s
    simp only [exec, execBrev, apply_ite (Answer.map (State.withReport r))]
    rfl
  | brpass N => exact execBrpass_ignoresReport N
  | pair0 j => exact execPair0_ignoresReport j
  | bfly a b z p M => exact butterfly_ignoresReport a b z p M
  | dbfly j k2 z p M => exact execDbfly_ignoresReport j k2 z p M
  | twgen A j =>
    intro r s
    simp only [exec, execTwgen, withReport_cfg, put_withReport]
    split_ifs <;> rfl

/-- The sequencer makes internal operations alone. -/
theorem encode_nextOperation {q : Seq} {i : Instr} (h : nextOperation q = some i) : ∃ u, encode i = .uop u := by
  cases hph : q.phase <;> simp only [nextOperation, hph, reduceCtorEq, Option.some.injEq] at h <;> subst h <;> exact ⟨_, rfl⟩

/-- A select code selects internal operations alone (30_encoding.md R70). -/
theorem encode_decodeUop {u : UopWord} {i : Instr} (h : decodeUop u = some i) : ∃ v, encode i = .uop v := by
  unfold decodeUop at h
  split at h <;> cases h <;> exact ⟨_, rfl⟩

theorem engineOp_ignoresReport : IgnoresReport engineOp := by
  intro r s
  rw [engineOp, engineOp, withReport_seq]
  cases hi : nextOperation s.seq with
  | none => rfl
  | some i =>
    obtain ⟨u, hu⟩ := encode_nextOperation hi
    have hadvance : IgnoresReport fun t => .next (advance s.seq.phase t) := fun r t =>
      congrArg Host.Outcome.next (advance_withReport r t _)
    dsimp only
    rw [exec_ignoresReport hu, hadvance.andThen_map]

/-! A rejection (R214). -/

/-- Settles O10: the first cause is recorded, and a later one leaves the whole state as it was. -/
theorem rejectionRecordsTheFirstCause : Obligations.RejectionRecordsTheFirstCause := by
  refine ⟨fun c s => ?_, rfl, rfl, rfl, rfl, rfl⟩
  rcases reject_eq c s with ⟨herr, hreject⟩ | ⟨herr, hreject⟩ <;> simp [hreject, herr]

theorem hideError_reject (c : Cause) (s : State) : hideError (reject c s) = hideError s := by
  rcases reject_eq c s with ⟨-, h⟩ | ⟨-, h⟩
  · rw [h]
  · rw [h]
    rfl

/-! A standing error blocks nothing (R217). -/

/-- A command is issued the same beside a standing error when neither its check nor its acceptance looks at the report. -/
theorem issue_hideError {check : State → Option Cause} {accept : State → State} (s : State)
    (hcheck : check (hideError s) = check s) (haccept : hideError (accept (hideError s)) = hideError (accept s)) :
    Answer.map hideError (issue check accept s) = Answer.map hideError (issue check accept (hideError s)) := by
  rcases issue_cases check accept s with ⟨hb, he⟩ | ⟨hb, c, hc, he⟩ | ⟨hb, hc, he⟩
  · rw [he, issue_busy (s := hideError s) hb, Answer.map, Answer.map, hideError_reject, hideError_reject]
    rfl
  · rw [he, issue_rejected (s := hideError s) hb (hcheck.trans hc), Answer.map, Answer.map, hideError_reject, hideError_reject]
    rfl
  · rw [he, issue_accepted (s := hideError s) hb (hcheck.trans hc), Answer.map, Answer.map, haccept]

/-- Settles O15: a command looks at the report neither in its check nor at its acceptance, and an internal operation not at all. -/
theorem standingErrorBlocksNothing : Obligations.StandingErrorBlocksNothing := by
  intro i s
  cases hi : encode i with
  | cmd w =>
    rcases decodeCmd_cases ((decodeCmd_eq_some_iff w i).mpr hi) with rfl | rfl | rfl | rfl
    · exact issue_hideError s rfl rfl
    · exact issue_hideError s rfl rfl
    · exact issue_hideError s rfl rfl
    · exact issue_hideError (check := fun _ => none) (accept := acknowledge) s rfl rfl
  | uop u =>
    rw [(exec_ignoresReport hi).hideError]
    cases exec i s <;> rfl

/-! The report stays (R215). -/

/-- The report of `s` stands in `t`. -/
abbrev SameError (s t : State) : Prop := t.status.err = s.status.err ∧ t.status.errCode = s.status.errCode

theorem SameError.trans {s t u : State} (h : SameError s t) (h' : SameError t u) : SameError s u :=
  ⟨h'.1.trans h.1, h'.2.trans h.2⟩

theorem IgnoresReport.sameError {f : State → Answer} (hf : IgnoresReport f) {s t : State} (h : f s = .next t) : SameError s t :=
  ⟨congrArg Report.err (hf.report_eq h), congrArg Report.errCode (hf.report_eq h)⟩

/-- What follows the Host's access at an edge leaves the report. -/
theorem sameError_portEdge {c : PortCycle} {s u t : State} (hrst : c.rst = false) (hu : hostAccess c s = .next u)
    (h : portEdge c s = .next t) : SameError u t := by
  rw [portEdge, if_neg (by simp [hrst]), hu, andThen_next] at h
  split at h
  · exact engineOp_ignoresReport.sameError h
  · injection h with h
    exact h ▸ ⟨rfl, rfl⟩

section standing

variable {s t : State} (herr : s.status.err = true)
include herr

theorem sameError_reject (c : Cause) : SameError s (reject c s) := by
  rcases reject_eq c s with ⟨-, h⟩ | ⟨hno, -⟩
  · rw [h]
    exact ⟨rfl, rfl⟩
  · exact absurd (herr.symm.trans hno) Bool.false_ne_true.symm

theorem sameError_issue {check : State → Option Cause} {accept : State → State}
    (haccept : s.status.busy = false → SameError s (accept s)) (h : issue check accept s = .next t) : SameError s t := by
  rcases issue_cases check accept s with ⟨-, he⟩ | ⟨-, c, -, he⟩ | ⟨hb, -, he⟩ <;> rw [he] at h <;> injection h with h <;>
    subst h
  · exact sameError_reject herr _
  · exact sameError_reject herr c
  · exact haccept hb

/-- Of the words written to `CMD` only an accepted CLRSTAT, the word 4, ends a report (45_commands.md R184). -/
theorem sameError_writeCmd {w : PortWord} (hw : ¬(w = 4 ∧ s.status.busy = false)) (h : writeCmd w s = .next t) :
    SameError s t := by
  unfold writeCmd at h
  split at h
  · next i hi =>
    rcases decodeCmd_cases hi with rfl | rfl | rfl | rfl
    · exact sameError_issue herr (fun _ => ⟨rfl, rfl⟩) h
    · exact sameError_issue herr (fun _ => ⟨rfl, rfl⟩) h
    · exact sameError_issue herr (fun _ => ⟨rfl, rfl⟩) h
    · have hword : w = 4 := Encoded.cmd.inj ((decodeCmd_eq_some_iff w .clrstat).mp hi).symm
      exact sameError_issue (check := fun _ => none) herr (fun hb => absurd ⟨hword, hb⟩ hw) h
  · split at h <;> injection h with h <;> subst h <;> exact sameError_reject herr _

theorem sameError_writeSample (sp : Space) (i : Nat) (d : PortWord) : SameError s (writeSample sp i d s) := by
  unfold writeSample
  split
  · exact sameError_reject herr _
  · rw [SameError, put_status]
    exact ⟨rfl, rfl⟩

theorem sameError_hostWrite {addr : Nat} {d : PortWord}
    (hclear : ¬(target s.cfg addr = .cmd ∧ d = 4 ∧ s.status.busy = false)) (h : hostWrite addr d s = .next t) :
    SameError s t := by
  unfold hostWrite at h
  split at h
  · next htarget => exact sameError_writeCmd herr (fun hd => hclear ⟨htarget, hd⟩) h
  · injection h with h
    exact h ▸ sameError_writeSample herr .re _ d
  · injection h with h
    exact h ▸ sameError_writeSample herr .im _ d
  all_goals
    injection h with h
    exact h ▸ ⟨rfl, rfl⟩

theorem sameError_hostAccess {c : PortCycle} (hrst : c.rst = false)
    (hclear : ¬(Writes s c .cmd ∧ c.wdata = 4 ∧ s.status.busy = false)) (h : hostAccess c s = .next t) : SameError s t := by
  unfold hostAccess at h
  split at h
  · next hsel =>
    split at h
    · next hwe => exact sameError_hostWrite herr (fun ⟨htarget, hd⟩ => hclear ⟨⟨hrst, hsel, hwe, htarget⟩, hd⟩) h
    · injection h with h
      exact h ▸ ⟨rfl, rfl⟩
  · injection h with h
    exact h ▸ ⟨rfl, rfl⟩

end standing

/-- Settles O14: operations leave the report, a rejection does not replace it, and of the commands CLRSTAT alone ends it. -/
theorem errorReportIsSticky : Obligations.ErrorReportIsSticky := by
  intro s t herr hstep hno
  suffices hsame : SameError s t from ⟨hsame.1.trans herr, hsame.2⟩
  have edge : ∀ c rest, c.rst = false → ¬(Writes s c .cmd ∧ c.wdata = 4 ∧ s.status.busy = false) →
      portEdge c (atEdge s rest) = .next t → SameError s t := by
    intro c rest hrst hclear hedge
    obtain ⟨u, hu⟩ := hostAccess_next c (atEdge s rest)
    have haccess : SameError s u := sameError_hostAccess (s := atEdge s rest) herr hrst hclear hu
    exact haccess.trans (sameError_portEdge hrst hu hedge)
  rcases step_next hstep with ⟨u, i, -, hi, hexec⟩ | ⟨huop, c, rest, hhost | ⟨rfl, -, -⟩, hedge⟩
  · obtain ⟨v, hv⟩ := encode_decodeUop hi
    exact (exec_ignoresReport hv).sameError (s := { atEdge s s.host with uop := none }) hexec
  · obtain ⟨hrst, hclear⟩ := hno c rest ⟨huop, hhost⟩
    exact edge c rest hrst hclear hedge
  · exact edge (quietCycle true) rest rfl (by simp [quietCycle]) hedge

/-! The Host's accesses to a running block (R218). -/

theorem writeSample_busy {s : State} (sp : Space) (i : Nat) (d : PortWord) (hb : s.status.busy = true) :
    writeSample sp i d s = reject .busyViolation s := if_pos hb

theorem hostWrite_busy_rejected {s : State} {addr : Nat} (d : PortWord) (hb : s.status.busy = true)
    (h : target s.cfg addr = .cmd ∨ (∃ i, target s.cfg addr = .re i) ∨ ∃ i, target s.cfg addr = .im i) :
    hostWrite addr d s = .next (reject .busyViolation s) := by
  rcases h with h | ⟨i, h⟩ | ⟨i, h⟩ <;> simp only [hostWrite, h, writeCmd_busy d hb, writeSample_busy _ _ d hb]

/-- Settles O49: what the address reaches tells the rejected writes from the ignored ones; a read writes the read port. -/
theorem accessesWhileBusy : Obligations.AccessesWhileBusy := by
  intro s addr d hb
  refine ⟨hostWrite_busy_rejected d hb, fun h => hostWrite_ignored d ?_, fun e => hostAccess_read s rfl rfl⟩
  rcases h with h | h | h | h
  · exact .inr (.inl h)
  · exact .inr (.inr (.inl h))
  · exact .inr (.inr (.inr h))
  · exact .inl h

/-- Settles O43: the access is judged before the Engine's operation, which leaves the report also when it completes the command. -/
theorem writeAtTheCompletingEdgeIsRejected : Obligations.WriteAtTheCompletingEdgeIsRejected := by
  intro s t c rest i hnext hb hwrites hstep
  obtain ⟨hrst, hsel, hwe, htarget⟩ : c.rst = false ∧ c.sel = true ∧ c.we = true ∧
      (target s.cfg c.addr = .cmd ∨ target s.cfg c.addr = .re i ∨ target s.cfg c.addr = .im i) := by tauto
  have haccess : hostAccess c (atEdge s rest) = .next (reject .busyViolation (atEdge s rest)) := by
    rw [hostAccess, if_pos hsel, if_pos hwe]
    exact hostWrite_busy_rejected (s := atEdge s rest) c.wdata hb (htarget.imp_right (Or.imp (⟨i, ·⟩) (⟨i, ·⟩)))
  obtain ⟨herr, hcode⟩ := sameError_portEdge hrst haccess (step_cycle hnext ▸ hstep)
  refine ⟨herr.trans (reject_err _ _), fun hno => hcode.trans ?_⟩
  rcases reject_eq .busyViolation (atEdge s rest) with ⟨hyes, -⟩ | ⟨-, hreject⟩
  · exact absurd (hno.symm.trans hyes) Bool.false_ne_true
  · rw [hreject]
    rfl

theorem hideReport_hostAccess_busy {s t : State} {c : PortCycle} (hb : s.status.busy = true) (h : hostAccess c s = .next t) :
    hideReport t = hideReport s := by
  rcases hostAccess_busy hb h with rfl | rfl | ⟨d, rfl⟩
  · rfl
  · exact congrArg (fun u : State => { u with rdata := none }) (hideError_reject .busyViolation s)
  · rfl

/-- At an edge of a running block the Host's access does not show but in the report: the answer is that of the Engine alone. -/
theorem hideReport_portEdge_busy {s : State} {c : PortCycle} (hrst : c.rst = false) (hb : s.status.busy = true) :
    Answer.map hideReport (portEdge c s) = Answer.map hideReport (if c.engine = true then engineOp s else .next s) := by
  obtain ⟨u, hu⟩ := hostAccess_next c s
  have hsame : hideReport u = hideReport s := hideReport_hostAccess_busy hb hu
  rw [portEdge, if_neg (by simp [hrst]), hu, andThen_next]
  cases hengine : c.engine
  · simp [Answer.map, hsame]
  · simp only [hb, and_self, if_true]
    rw [← engineOp_ignoresReport.hideReport, hsame, engineOp_ignoresReport.hideReport]

/-- Settles O42: the Engine ignores the report, which is all that the access of a running block reaches. -/
theorem hostCannotDisturbARunningCommand : Obligations.HostCannotDisturbARunningCommand := by
  intro s c d rest huop hb hc hd hengine
  have hedge : ∀ e, e.rst = false → Answer.map hideReport (step { s with host := e :: rest }) =
      Answer.map hideReport (if e.engine = true then engineOp (atEdge s rest) else .next (atEdge s rest)) := fun e he => by
    have hstep : step { s with host := e :: rest } = portEdge e (atEdge s rest) :=
      step_cycle (s := { s with host := e :: rest }) ⟨huop, rfl⟩
    rw [hstep, hideReport_portEdge_busy (s := atEdge s rest) he hb]
  rw [hedge c hc, hedge d hd, hengine]

end Sys2Proof.Machine
end

section
/-! PROOFS. The reset edge (70_reset_and_hazards.md R240, R242), and an XFORM left alone, on memories of any contents (R252, 45_commands.md
R182, 44_butterfly_engine.md R167): the counters of SEQ, which no value reaches, say how many operations are made, and no operation
reaches a word at or above `N` (20_memory.md R65). -/

namespace Sys2Proof.Machine

/-! The reset edge. -/

theorem step_reset {s : State} {c : PortCycle} {rest : List PortCycle} (h : NextCycle s c rest) (hrst : c.rst = true) :
    step s = .next (resetEdge c (atEdge s rest)) := by
  rw [step_cycle h, portEdge, if_pos hrst]

/-- Settles O9: the edge takes every field but the port's and the model's own from the reset state. -/
theorem resetEdgeAbandonsEverything : Obligations.ResetEdgeAbandonsEverything := by
  intro s c rest hnext hrst
  obtain ⟨-, -, -, -, -, hword, hbase, hphase, hbusy, hdone, hmem⟩ := resetLeavesTheStatedValues
  refine ⟨_, step_reset hnext hrst, hword, hbase, hphase, hbusy, hdone, hmem, ?_, rfl, rfl, rfl⟩
  simp [resetEdge]

/-! How far SEQ has come in a transform. -/

/-- SEQ after this many Engine operations of a transform of size `N` (10_state.md R27; 44_butterfly_engine.md R154, R159, R167). -/
inductive SeqAt (N : Nat) : Nat → Seq → Prop
  | permute {q : Seq} (hph : q.phase = .permute) (hn : q.n = N) (hm : q.m = stages N) : SeqAt N 0 q
  | stage0 {q : Seq} {d : Nat} (hph : q.phase = .stage0) (hn : q.n = N) (hm : q.m = stages N) (hi : q.i = 2 * d)
      (hd : d < N / 2) : SeqAt N (1 + d) q
  | general {g d : Nat} (hg : g + 2 ≤ stages N) (hd : d < N / 4) :
      SeqAt N (1 + N / 2 + (g * (N / 4) + d)) (generalSeq N g d)
  | complete {q : Seq} (hph : q.phase = .idle) : SeqAt N (xformOps N) q

namespace SeqAt

variable {N k : Nat} {q : Seq}

theorem phase_ne_idle (h : SeqAt N k q) (hk : k < xformOps N) : q.phase ≠ .idle := by
  cases h with
  | permute hph => simp [hph]
  | stage0 hph => simp [hph]
  | general => simp [generalSeq]
  | complete => exact absurd hk (lt_irrefl _)

theorem phase_eq_idle (h : SeqAt N (xformOps N) q) : q.phase = .idle := by
  generalize hk : xformOps N = k at h
  cases h with
  | permute =>
    rw [xformOps] at hk
    omega
  | stage0 hph hn hm hi hd =>
    rw [xformOps] at hk
    omega
  | @general g d hg hd =>
    have hstage : (g + 1) * (N / 4) ≤ (stages N - 1) * (N / 4) := Nat.mul_le_mul_right _ (by omega)
    rw [add_mul, one_mul] at hstage
    rw [xformOps] at hk
    omega
  | complete hph => exact hph

end SeqAt

section advance

variable {c : Params} {N d g : Nat} {u : State}

/-- After a combine: the next one, the first stage of `GENERAL`, or completion (44_butterfly_engine.md R154). -/
theorem seqAt_afterPair0 (hN : isSize c N = true) (hph : u.seq.phase = .stage0) (hn : u.seq.n = N) (hm : u.seq.m = stages N)
    (hi : u.seq.i = 2 * d) (hd : d < N / 2) : SeqAt N (1 + d + 1) (afterPair0 u).seq := by
  have heven := even_of_isSize hN
  rw [afterPair0, hi, hn, hm]
  by_cases hmore : 2 * d + 2 ≤ N - 2
  · rw [if_pos hmore]
    exact .stage0 (d := d + 1) hph hn hm rfl (by omega)
  rw [if_neg hmore]
  by_cases hgeneral : 2 ≤ stages N
  · have h4 : 2 ^ 2 ≤ N := two_pow_le_of_le_stages hN hgeneral
    rw [if_pos hgeneral, startGeneral_eq hn hm, show 1 + d + 1 = 1 + N / 2 + (0 * (N / 4) + 0) by omega]
    exact .general hgeneral (by omega)
  · have hops : 1 + d + 1 = xformOps N := by
      rw [xformOps, show stages N - 1 = 0 by omega]
      omega
    rw [if_neg hgeneral, hops]
    exact .complete rfl

/-- After a dual butterfly: the next one, the next stage, or completion (44_butterfly_engine.md R159). -/
theorem seqAt_afterDbfly (hN : isSize c N = true) (hq : u.seq = generalSeq N g d)
    (hres : u.result = .index (nextZ (nextZ (2 * (d % 2 ^ g)) (2 ^ (g + 1))) (2 ^ (g + 1)))) (hg : g + 2 ≤ stages N)
    (hd : d < N / 4) : SeqAt N (1 + N / 2 + (g * (N / 4) + d) + 1) (afterDbfly u).seq := by
  rw [afterDbfly_generalSeq hq hres]
  rcases show d + 1 < N / 4 ∨ d + 1 = N / 4 by omega with hmore | hend
  · have hlast := pairIndex_lt hN hg hmore
    have hgroup := Nat.two_pow_pos g
    rw [if_pos (by omega)]
    exact .general hg hmore
  have hwhole : pairIndex g (d + 1) = N := hend ▸ pairIndex_quarter hN hg
  have hops : 1 + N / 2 + (g * (N / 4) + d) + 1 = 1 + N / 2 + ((g + 1) * (N / 4) + 0) := by
    rw [add_mul]
    omega
  rw [if_neg (by omega), hops]
  by_cases hstage : g + 2 < stages N
  · rw [if_pos hstage]
    exact .general hstage (by omega)
  · rw [if_neg hstage, show 1 + N / 2 + ((g + 1) * (N / 4) + 0) = xformOps N by
      rw [xformOps, show stages N - 1 = g + 1 by omega, add_zero]]
    exact .complete rfl

end advance

/-! What an operation of a transform leaves. -/

/-- The words of `RE` and `IM` at and above `N` are the same. -/
abbrev SameFrom (N : Nat) (s t : State) : Prop := ∀ j, N ≤ j → t.re.find j = s.re.find j ∧ t.im.find j = s.im.find j

section operations

variable {s u : State} {N i a b z p m k2 k : Nat}

theorem sameFrom_execBrpass (hN : isSize s.cfg N = true) (hu : execBrpass N s = .next u) : SameFrom N s u := by
  intro j hj
  injection hu with hu
  subst hu
  have hre : ((List.range N).foldl (reorderAt N) s).re.find j = s.re.find j := find_reorder _ fun n => by
    rw [passIndex_of_isSize n hN]
    exact (bitReverse_lt n hN).trans_le hj
  exact ⟨hre, by rw [reorder_frame]⟩

theorem sameFrom_execPair0 (hi : i + 1 < N) (hu : execPair0 i s = .next u) : SameFrom N s u := by
  intro j hj
  obtain ⟨-, -, -, rfl⟩ := execPair0_next hu
  rw [← mem_re, ← mem_re, find_mem_put, if_neg (by omega), find_mem_put, if_neg (by omega)]
  exact ⟨rfl, rfl⟩

theorem sameFrom_butterfly (ha : a < N) (hb : b < N) (hu : butterfly a b z p m s = .next u) : SameFrom N s u :=
  fun _ hj => find_butterfly_other hu (ha.trans_le hj).ne' (hb.trans_le hj).ne'

/-- A dual butterfly leaves SEQ and the words above its last tap, and returns the index two steps on (44_butterfly_engine.md R158). -/
theorem execDbfly_leaves (hi : i + 1 + k2 < N) (hu : execDbfly i k2 z p m s = .next u) :
    u.seq = s.seq ∧ u.result = .index (nextZ (nextZ z p) p) ∧ SameFrom N s u := by
  obtain ⟨s1, s2, h1, h2, rfl⟩ := execDbfly_next hu
  have heven : SameFrom N s s1 := sameFrom_butterfly (by omega) (by omega) h1
  have hodd : SameFrom N s1 s2 := sameFrom_butterfly (by omega) hi h2
  refine ⟨?_, rfl, fun j hj => ⟨(hodd j hj).1.trans (heven j hj).1, (hodd j hj).2.trans (heven j hj).2⟩⟩
  rw [butterfly_frame h2, butterfly_frame h1]

/-- An Engine operation of a transform takes SEQ one operation on. -/
theorem SeqAt.of_engineOp (h : SeqAt N k s.seq) (hk : k < xformOps N) (hN : isSize s.cfg N = true)
    (hu : engineOp s = .next u) : SeqAt N (k + 1) u.seq ∧ SameFrom N s u := by
  rcases engineOp_next hu with ⟨hidle, -⟩ | ⟨i, v, hi, hv, rfl⟩
  · exact absurd hidle (h.phase_ne_idle hk)
  have hwords : SameFrom N s v → SameFrom N s (advance s.seq.phase v) := by
    rw [advance_frame]
    exact id
  generalize hq : s.seq = q at h hi hwords ⊢
  cases h with
  | permute hph hn hm =>
    obtain rfl : Instr.brpass N = i := by simpa [nextOperation, hph, hn] using hi
    obtain ⟨w, hw, hframe⟩ := execBrpass_next N s
    obtain rfl : w = v := by injection hw.symm.trans hv
    have hseq : w.seq = q := by rw [hframe, hq]
    refine ⟨?_, hwords (sameFrom_execBrpass hN hv)⟩
    rw [hph, advance]
    exact .stage0 (d := 0) rfl ((congrArg Seq.n hseq).trans hn) ((congrArg Seq.m hseq).trans hm) rfl
      (Nat.div_pos (two_le_of_isSize hN) Nat.two_pos)
  | @stage0 _ d hph hn hm hstart hd =>
    obtain rfl : Instr.pair0 (2 * d) = i := by simpa [nextOperation, hph, hstart] using hi
    have hseq : v.seq = q := by
      obtain ⟨-, -, -, rfl⟩ := execPair0_next hv
      rw [put_seq, put_seq, hq]
    refine ⟨?_, hwords (sameFrom_execPair0 (by omega) hv)⟩
    rw [hph, advance]
    exact seqAt_afterPair0 hN (hseq ▸ hph) (hseq ▸ hn) (hseq ▸ hm) (hseq ▸ hstart) hd
  | @general g d hg hd =>
    obtain rfl : Instr.dbfly (pairIndex g d) (2 * 2 ^ g) (2 * (d % 2 ^ g)) (2 ^ (g + 1)) (stages N) = i := by
      simpa [nextOperation, generalSeq] using hi
    obtain ⟨hseq, hres, hsame⟩ := execDbfly_leaves (pairIndex_lt hN hg hd) hv
    exact ⟨seqAt_afterDbfly hN (hseq.trans hq) hres hg hd, hwords hsame⟩
  | complete => exact absurd hk (lt_irrefl _)

theorem engineOp_alone (h : Alone s) (hu : engineOp s = .next u) : Alone u := by
  rcases engineOp_next hu with ⟨-, rfl⟩ | ⟨i, v, -, hv, rfl⟩
  · exact h
  · obtain ⟨-, -, hhost, huop, -⟩ := exec_next_frame hv
    rw [advance_frame]
    exact ⟨hhost.trans h.1, huop.trans h.2⟩

end operations

/-! The run of an accepted XFORM. -/

/-- An XFORM of size `N`, accepted in the state `s0` and left alone, has made `k` Engine operations. -/
structure XformRun (s0 : State) (N k : Nat) (s : State) : Prop where
  inv : Inv s
  alone : Alone s
  cfg : s.cfg = s0.cfg
  busyOrDone : s.status.busy = true ∨ s.status.done = true
  error : SameError s0 s
  base : s.tableA = s0.tableA
  table : s.tw = s0.tw
  seqAt : SeqAt N k s.seq
  words : SameFrom N s0 s

theorem xformRun_acceptXform {s : State} {N : Nat} (hinv : Inv s) (hN : isSize s.cfg N = true) (hr : ReadyFor s N) :
    XformRun s N 0 (acceptXform N s) := by
  obtain ⟨hidle, halone, hvalid, hbase⟩ := hr
  exact ⟨(HostEffect.xform hidle hN hvalid hbase).inv hinv, halone, rfl, .inl rfl, ⟨rfl, rfl⟩, rfl, rfl, .permute rfl rfl rfl,
    fun _ _ => ⟨rfl, rfl⟩⟩

namespace XformRun

variable {s0 s t : State} {N k : Nat}

theorem busy_iff (h : XformRun s0 N k s) : s.status.busy = true ↔ s.seq.phase ≠ .idle := by
  obtain ⟨-, hc, -⟩ := inv_iff.mp h.inv
  exact hc.flags.1

theorem busy (h : XformRun s0 N k s) (hk : k < xformOps N) : s.status.busy = true :=
  h.busy_iff.mpr (h.seqAt.phase_ne_idle hk)

/-- The table stays valid, as its base size stays. -/
theorem valid (h : XformRun s0 N k s) (hN : isSize s0.cfg s0.tableA = true) : s.status.tableValid = true := by
  obtain ⟨-, hc, -⟩ := inv_iff.mp h.inv
  exact hc.descriptor.1.mpr (by rwa [h.cfg, h.base])

theorem step_eq (h : XformRun s0 N k s) (hk : k < xformOps N) : step s = engineOp (atEdge s []) := by
  rw [step_alone h.alone, if_pos (h.busy hk)]

/-- A step that completes is one operation more. -/
theorem of_step (h : XformRun s0 N k s) (hA : s0.tableA = N) (hN : isSize s0.cfg N = true) (hk : k < xformOps N)
    (ht : step s = .next t) : XformRun s0 N (k + 1) t := by
  have hop : engineOp (atEdge s []) = .next t := h.step_eq hk ▸ ht
  obtain ⟨htw, hbase⟩ := engineOp_keeps_table (inv_atEdge [] h.inv) (h.valid (hA ▸ hN)) hop
  obtain ⟨hseq, hwords⟩ := SeqAt.of_engineOp (s := atEdge s []) h.seqAt hk (h.cfg ▸ hN) hop
  exact {
    inv := stepKeepsTheInvariant s t h.inv ht
    alone := engineOp_alone (s := atEdge s []) ⟨rfl, h.alone.2⟩ hop
    cfg := (configurationNeverChanges s t ht).trans h.cfg
    busyOrDone := engineOp_busy_or_done (s := atEdge s []) (h.busy hk) hop
    error := h.error.trans (engineOp_ignoresReport.sameError (s := atEdge s []) hop)
    base := hbase.trans h.base
    table := htw.trans h.table
    seqAt := hseq
    words := fun j hj => ⟨(hwords j hj).1.trans (h.words j hj).1, (hwords j hj).2.trans (h.words j hj).2⟩ }

/-- A number of steps are made, or one of them is an overflow (60_exceptions.md R219). -/
theorem run_cases (h : XformRun s0 N 0 s) (hA : s0.tableA = N) (hN : isSize s0.cfg N = true) (hk : k ≤ xformOps N) :
    (∃ t, run k s = .next t ∧ XformRun s0 N k t) ∨
    ∃ sp j v, run k s = .fault (.overflow sp j v) ∧ ¬ fits s0.cfg.sampleW v := by
  induction k with
  | zero => exact .inl ⟨s, rfl, h⟩
  | succ k ih =>
    rcases ih (Nat.le_of_succ_le hk) with ⟨t, hrun, ht⟩ | ⟨sp, j, v, hrun, hv⟩
    · rw [run_succ_of_run hrun]
      rcases engineStaysInsideItsContracts t ht.inv with ⟨u, hu⟩ | ⟨sp, j, v, hfault, -, -, hv, -⟩
      · exact .inl ⟨u, hu, ht.of_step hA hN hk hu⟩
      · exact .inr ⟨sp, j, v, hfault, ht.cfg ▸ hv⟩
    · exact .inr ⟨sp, j, v, by rw [run_add, hrun, andThen_fault], hv⟩

/-- After its last operation the command is complete (45_commands.md R182). -/
theorem completed (h : XformRun s0 N (xformOps N) s) (hA : isSize s0.cfg s0.tableA = true)
    (hvalid : s0.status.tableValid = true) :
    s.status = { s0.status with busy := false, done := true } ∧ s.seq.phase = .idle := by
  have hidle := h.seqAt.phase_eq_idle
  have hbusy : s.status.busy = false := by simpa [hidle] using h.busy_iff
  have hdone : s.status.done = true := by simpa [hbusy] using h.busyOrDone
  obtain ⟨herr, hcode⟩ := h.error
  have htable : s.status.tableValid = s0.status.tableValid := (h.valid hA).trans hvalid.symm
  refine ⟨?_, hidle⟩
  show s.status = ⟨false, true, s0.status.err, s0.status.tableValid, s0.status.errCode⟩
  rw [← hbusy, ← hdone, ← herr, ← htable, ← hcode]

end XformRun

/-- Settles O51: a run that meets no overflow goes through all operations of the command, as its counters say. -/
theorem xformRunsToCompletion : Obligations.XformRunsToCompletion := by
  intro N s hinv hN hready
  have hstart := xformRun_acceptXform hinv hN hready
  have hexec := execXform_of_readyFor hN hready
  obtain ⟨-, -, hvalid, hA⟩ := hready
  refine ⟨acceptXform N.toNat s, hexec, ?_⟩
  rcases hstart.run_cases hA hN le_rfl with ⟨t, hrun, ht⟩ | hfault
  · obtain ⟨hstatus, hidle⟩ := ht.completed (hA ▸ hN) hvalid
    refine .inr ⟨t, hrun, hstatus, hidle, ht.base, ht.table, fun k hk => ?_, ht.words⟩
    rcases hstart.run_cases hA hN hk.le with ⟨u, hu, hbefore⟩ | ⟨sp, j, v, hfault, -⟩
    · exact ⟨u, hu, hbefore.busy hk⟩
    · obtain ⟨rest, hrest⟩ := Nat.exists_eq_add_of_le hk.le
      rw [hrest, run_add, hfault, andThen_fault] at hrun
      cases hrun
  · exact .inl hfault

end Sys2Proof.Machine
end
